-- ==== Sys2Proof/Word.lean ====
section
/-! DEFINITION. The value domain and the one range test of the spec.

Every register, data-cell payload, instruction argument, latch, program counter and ALU operand or result is an element of
ℤ, with no width and no wrap-around (00_scope R8), so the machine word of this block is Lean's `Int`, written so throughout,
and `BitVec` is used nowhere: the spec has no bit fields. The tick counter is an element of ℕ. -/

namespace Sys2Proof

/-- `0 <= v < n`: the test of a register field against `NREG`, of a data address against `DLEN` and of a program
counter against `PLEN` (30_encoding R78, 20_memory R55 and R60). A negative value is out of range. -/
abbrev InRange (v : Int) (n : Nat) : Prop := 0 ≤ v ∧ v < (n : Int)

end Sys2Proof
end

