-- ==== Sys2Proof/Syntax.lean ====
section
/-! DEFINITION. The opcodes, the record every program entry is, and the instructions. -/

namespace Sys2Proof

/-- The 3 data-declaration tags (30_encoding R71, R74). -/
inductive DataTag where
  | NUMBER | STRING | BUFFER
  deriving DecidableEq, Repr

/-- What the `opcode` field of a record holds: one of the 19 tags, in the source's enumeration order (30_encoding R71), or,
in a realisation with a binary opcode field, one of its 13 codes without a tag (R83; log 17). -/
inductive Opcode where
  | HLT | JMP | JZ | JZ_R | MOV | LOAD_V | LOAD_R | STORE_V | STORE_R | NEXT
  | CMP | INC | ADD_MMR | MOD_RRV | LINEAR | LINEAR_CONT
  | NUMBER | STRING | BUFFER
  /-- The 5-bit code `19 + k`, which has no tag; no image holds one (R75, R83). -/
  | untagged (k : Fin 13)
  deriving DecidableEq, Repr

/-- The record `{ index, opcode, args }` (30_encoding R70). `index` is identity only: the block never reads it (R73). -/
structure MachineCode where
  index  : Int
  opcode : Opcode
  args   : List Int
  deriving DecidableEq, Repr

/-- One constructor per row of the opcode table, its operands in `args` order (30_encoding R76). A register field is
the plain integer of the record (R78): whether it names a register is checked when the instruction executes. Literals,
data addresses and targets are used as the integers they are (R79, R80, R81). -/
inductive Instr where
  | hlt                               -- HLT
  | jmp (t : Int)                    -- JMP t
  | jz (t : Int)                     -- JZ t
  | jzR (t r : Int)                  -- JZ_R t, r
  | mov (rd imm : Int)               -- MOV rd, imm
  | loadV (rd a : Int)               -- LOAD_V rd, a
  | loadR (rd rp : Int)              -- LOAD_R rd, rp
  | storeV (a rs : Int)              -- STORE_V a, rs
  | storeR (rp rs : Int)             -- STORE_R rp, rs
  | next (rd rp : Int)               -- NEXT rd, rp
  | cmp (ra rb : Int)                -- CMP ra, rb
  | inc (rd : Int)                   -- INC rd
  | addMmr (md ms rs : Int)          -- ADD_MMR md, ms, rs
  | modRrv (rd rs imm : Int)         -- MOD_RRV rd, rs, imm
  | linear (rd ri imm : Int)         -- LINEAR rd, ri, imm
  | linearCont (rd ri imm : Int)     -- LINEAR_CONT rd, ri, imm
  | number (args : List Int)         -- NUMBER in the code segment, any arguments (R82, R85)
  | string (args : List Int)         -- STRING in the code segment
  | buffer (args : List Int)         -- BUFFER in the code segment
  deriving DecidableEq, Repr

end Sys2Proof
end

