-- ==== Sys2Proof/WellFormed.lean ====
section
/-! DEFINITION. Which instructions may execute on a block of `nreg` registers: those whose tag is an instruction tag
and whose register fields name registers (30_encoding R78, R82, R85). -/

namespace Sys2Proof

/-- The fields of kind `R`, in `args` order (30_encoding R76). -/
def Instr.regFields : Instr → List Int
  | .hlt => []
  | .jmp _ => []
  | .jz _ => []
  | .jzR _ r => [r]
  | .mov rd _ => [rd]
  | .loadV rd _ => [rd]
  | .loadR rd rp => [rd, rp]
  | .storeV _ rs => [rs]
  | .storeR rp rs => [rp, rs]
  | .next rd rp => [rd, rp]
  | .cmp ra rb => [ra, rb]
  | .inc rd => [rd]
  | .addMmr _ _ rs => [rs]
  | .modRrv rd rs _ => [rd, rs]
  | .linear rd ri _ => [rd, ri]
  | .linearCont rd ri _ => [rd, ri]
  | .number _ => []
  | .string _ => []
  | .buffer _ => []

/-- The data tag of an instruction that is none (30_encoding R82). -/
def Instr.dataTag : Instr → Option DataTag
  | .number _ => some .NUMBER
  | .string _ => some .STRING
  | .buffer _ => some .BUFFER
  | .hlt | .jmp _ | .jz _ | .jzR .. | .mov .. | .loadV .. | .loadR .. | .storeV .. | .storeR .. | .next .. | .cmp ..
  | .inc _ | .addMmr .. | .modRrv .. | .linear .. | .linearCont .. => none

/-- The instruction passes the checks of 30_encoding R85 on a block of `nreg` registers: it is no data tag (R82) and
every register field is in `[0, nreg)` (R78). The arity check (R77) is the decoder's: an `Instr` has its arity. -/
def Instr.wellFormed (nreg : Nat) (i : Instr) : Bool :=
  i.dataTag.isNone && i.regFields.all fun v => decide (InRange v nreg)

end Sys2Proof
end

