-- ==== Sys2Proof/Decode.lean ====
section
/-! DEFINITION. From a record to its instruction and back (30_encoding R76, R77, R85), and the opcode's two other
forms: its ordinal (R83) and its mnemonic string (R71, R75). -/

namespace Sys2Proof

/-- What the decoder rejects. The data tags and the register range are checked when the instruction executes, in the same
step and before any signal (log 9). -/
inductive DecodeRejection where
  /-- The opcode is a code without an instruction (30_encoding R83, 60_exceptions R213). -/
  | invalidOpcode (opcode : Opcode)
  /-- The `args` length is not the opcode's arity (30_encoding R77). -/
  | malformed (record : MachineCode)
  deriving DecidableEq, Repr

/-- A record of arity 0, else `Malformed` (30_encoding R77). -/
def MachineCode.arity0 (r : MachineCode) (i : Instr) : Except DecodeRejection Instr :=
  match r.args with
  | [] => .ok i
  | _ => .error (.malformed r)

/-- A record of arity 1, else `Malformed` (30_encoding R77). -/
def MachineCode.arity1 (r : MachineCode) (i : Int → Instr) : Except DecodeRejection Instr :=
  match r.args with
  | [a] => .ok (i a)
  | _ => .error (.malformed r)

/-- A record of arity 2, else `Malformed` (30_encoding R77). -/
def MachineCode.arity2 (r : MachineCode) (i : Int → Int → Instr) : Except DecodeRejection Instr :=
  match r.args with
  | [a, b] => .ok (i a b)
  | _ => .error (.malformed r)

/-- A record of arity 3, else `Malformed` (30_encoding R77). -/
def MachineCode.arity3 (r : MachineCode) (i : Int → Int → Int → Instr) : Except DecodeRejection Instr :=
  match r.args with
  | [a, b, c] => .ok (i a b c)
  | _ => .error (.malformed r)

/-- The instruction of a record: exact equality of the tag selects it (30_encoding R71), its operands stand in `args`
order (R76), and a wrong number of them is refused (R77). A data tag is taken with any arguments, since its check
comes before the arity check (R85), and a code without a tag is refused with any arguments, as a data tag is in the end
(R83). `index` takes no part (R73). -/
def decode (r : MachineCode) : Except DecodeRejection Instr :=
  match r.opcode with
  | .HLT => r.arity0 .hlt
  | .JMP => r.arity1 .jmp
  | .JZ => r.arity1 .jz
  | .JZ_R => r.arity2 .jzR
  | .MOV => r.arity2 .mov
  | .LOAD_V => r.arity2 .loadV
  | .LOAD_R => r.arity2 .loadR
  | .STORE_V => r.arity2 .storeV
  | .STORE_R => r.arity2 .storeR
  | .NEXT => r.arity2 .next
  | .CMP => r.arity2 .cmp
  | .INC => r.arity1 .inc
  | .ADD_MMR => r.arity3 .addMmr
  | .MOD_RRV => r.arity3 .modRrv
  | .LINEAR => r.arity3 .linear
  | .LINEAR_CONT => r.arity3 .linearCont
  | .NUMBER => .ok (.number r.args)
  | .STRING => .ok (.string r.args)
  | .BUFFER => .ok (.buffer r.args)
  | .untagged k => .error (.invalidOpcode (.untagged k))

/-- The record of an instruction, with the identity `index` the loader gives it (30_encoding R70, R73, R76). -/
def encode (index : Int) : Instr → MachineCode
  | .hlt => ⟨index, .HLT, []⟩
  | .jmp t => ⟨index, .JMP, [t]⟩
  | .jz t => ⟨index, .JZ, [t]⟩
  | .jzR t r => ⟨index, .JZ_R, [t, r]⟩
  | .mov rd imm => ⟨index, .MOV, [rd, imm]⟩
  | .loadV rd a => ⟨index, .LOAD_V, [rd, a]⟩
  | .loadR rd rp => ⟨index, .LOAD_R, [rd, rp]⟩
  | .storeV a rs => ⟨index, .STORE_V, [a, rs]⟩
  | .storeR rp rs => ⟨index, .STORE_R, [rp, rs]⟩
  | .next rd rp => ⟨index, .NEXT, [rd, rp]⟩
  | .cmp ra rb => ⟨index, .CMP, [ra, rb]⟩
  | .inc rd => ⟨index, .INC, [rd]⟩
  | .addMmr md ms rs => ⟨index, .ADD_MMR, [md, ms, rs]⟩
  | .modRrv rd rs imm => ⟨index, .MOD_RRV, [rd, rs, imm]⟩
  | .linear rd ri imm => ⟨index, .LINEAR, [rd, ri, imm]⟩
  | .linearCont rd ri imm => ⟨index, .LINEAR_CONT, [rd, ri, imm]⟩
  | .number args => ⟨index, .NUMBER, args⟩
  | .string args => ⟨index, .STRING, args⟩
  | .buffer args => ⟨index, .BUFFER, args⟩

/-- The number of arguments an instruction tag takes (30_encoding R76). A data entry has one, its payload (R74): the
loader checks that in the data segment, and nothing checks it in the code segment. A code without a tag has no layout. -/
def Opcode.arity : Opcode → Nat
  | .HLT => 0
  | .JMP | .JZ | .INC => 1
  | .JZ_R | .MOV | .LOAD_V | .LOAD_R | .STORE_V | .STORE_R | .NEXT | .CMP => 2
  | .ADD_MMR | .MOD_RRV | .LINEAR | .LINEAR_CONT => 3
  | .NUMBER | .STRING | .BUFFER => 1
  | .untagged _ => 0

/-- The data tag an opcode is, if it is one (30_encoding R71). -/
def Opcode.dataTag : Opcode → Option DataTag
  | .NUMBER => some .NUMBER
  | .STRING => some .STRING
  | .BUFFER => some .BUFFER
  | .HLT | .JMP | .JZ | .JZ_R | .MOV | .LOAD_V | .LOAD_R | .STORE_V | .STORE_R | .NEXT | .CMP | .INC | .ADD_MMR
  | .MOD_RRV | .LINEAR | .LINEAR_CONT | .untagged _ => none

/-- The opcode is one of the 16 instruction tags; any other raises `InvalidOpcode` (30_encoding R71, R82, R83). -/
def Opcode.isInstr : Opcode → Bool
  | .HLT | .JMP | .JZ | .JZ_R | .MOV | .LOAD_V | .LOAD_R | .STORE_V | .STORE_R | .NEXT | .CMP | .INC | .ADD_MMR
  | .MOD_RRV | .LINEAR | .LINEAR_CONT => true
  | .NUMBER | .STRING | .BUFFER | .untagged _ => false

/-- The opcodes by their code: the tags in the source's enumeration order, then the codes 19 to 31 (30_encoding R83). -/
def Opcode.all : List Opcode :=
  [.HLT, .JMP, .JZ, .JZ_R, .MOV, .LOAD_V, .LOAD_R, .STORE_V, .STORE_R, .NEXT, .CMP, .INC, .ADD_MMR, .MOD_RRV, .LINEAR,
   .LINEAR_CONT, .NUMBER, .STRING, .BUFFER, .untagged 0, .untagged 1, .untagged 2, .untagged 3, .untagged 4, .untagged 5,
   .untagged 6, .untagged 7, .untagged 8, .untagged 9, .untagged 10, .untagged 11, .untagged 12]

/-- The code of a binary opcode field: the tag's ordinal, or the code itself where it has no tag (30_encoding R83). -/
def Opcode.ordinal : Opcode → Nat
  | .HLT => 0
  | .JMP => 1
  | .JZ => 2
  | .JZ_R => 3
  | .MOV => 4
  | .LOAD_V => 5
  | .LOAD_R => 6
  | .STORE_V => 7
  | .STORE_R => 8
  | .NEXT => 9
  | .CMP => 10
  | .INC => 11
  | .ADD_MMR => 12
  | .MOD_RRV => 13
  | .LINEAR => 14
  | .LINEAR_CONT => 15
  | .NUMBER => 16
  | .STRING => 17
  | .BUFFER => 18
  | .untagged k => 19 + k.val

/-- What a binary opcode field of this code holds; five bits hold the codes 0 to 31 (30_encoding R83). -/
def Opcode.ofOrdinal? (code : Nat) : Option Opcode := Opcode.all[code]?

/-- The mnemonic string the image serializes a tag as; a code without a tag has none (30_encoding R71, R83). -/
def Opcode.mnemonic : Opcode → Option String
  | .HLT => some "HLT"
  | .JMP => some "JMP"
  | .JZ => some "JZ"
  | .JZ_R => some "JZ_R"
  | .MOV => some "MOV"
  | .LOAD_V => some "LOAD_V"
  | .LOAD_R => some "LOAD_R"
  | .STORE_V => some "STORE_V"
  | .STORE_R => some "STORE_R"
  | .NEXT => some "NEXT"
  | .CMP => some "CMP"
  | .INC => some "INC"
  | .ADD_MMR => some "ADD_MMR"
  | .MOD_RRV => some "MOD_RRV"
  | .LINEAR => some "LINEAR"
  | .LINEAR_CONT => some "LINEAR_CONT"
  | .NUMBER => some "NUMBER"
  | .STRING => some "STRING"
  | .BUFFER => some "BUFFER"
  | .untagged _ => none

/-- The tag of an opcode string, by exact equality (30_encoding R71); any other string is refused by the loader (R75). -/
def Opcode.ofMnemonic? (name : String) : Option Opcode := Opcode.all.find? fun op => op.mnemonic == some name

/-- The record of a word of an instruction: its bits are the 5-bit opcode field of a binary realisation (30_encoding
R83), and the operands, for which the spec gives no bits, are integers of value zero, as many as the arity. A code
of 19 to 31 gives the record that raises `InvalidOpcode`, and a word of more than 5 bits gives none. DESIGN CHOICE
(log 8; safe). -/
def recordOfWord? (w : Nat) : Option MachineCode :=
  (Opcode.ofOrdinal? w).map fun op => ⟨0, op, List.replicate op.arity 0⟩

/-- The instruction the decoder reads from an instruction whose bits are `w`, numbered as the opcode table numbers
them; `nbits` is the table's width of the row and decides nothing, since every bit above the opcode field is zero. -/
def decodeTableWord (nbits w : Nat) : Option Instr :=
  let _ := nbits
  match recordOfWord? w with
  | none => none
  | some r =>
    match decode r with
    | .ok i => some i
    | .error _ => none

end Sys2Proof
end

