-- ==== Sys2Proof/Config.lean ====
section
/-! DEFINITION. What is fixed for the machine: the two port sentinels, and the launch arguments `State.reset` takes
where the spec leaves them to the launch. No instruction has an open result, so there is no free value. -/

namespace Sys2Proof.Config

/-- The input-port sentinel: `INPUT_MAP = 0` (00_scope R7, 20_memory R61). -/
def inputMap : Int := 0

/-- The output-port sentinel: `OUTPUT_MAP = 1` (00_scope R7, 20_memory R61). -/
def outputMap : Int := 1

/-- DESIGN CHOICE (log 2; unsafe): `NREG` at `State.reset`. The spec makes it a launch parameter (00_scope R7) and
its test vectors take 8 (95_test_vectors L2-3, L3). -/
def resetNreg : Nat := 8

/-- DESIGN CHOICE (log 3; unsafe): `regInit` at `State.reset`, the same for each register. The spec gives none
(10_state R23). -/
def resetReg : Int := 0

/-- DESIGN CHOICE (log 4; unsafe): `zInit` at `State.reset`. The spec gives none (10_state R27). -/
def resetZ : Bool := false

/-- DESIGN CHOICE (log 5; unsafe): `daInit` at `State.reset`. The spec gives none (10_state R28). -/
def resetDa : Int := 0

/-- DESIGN CHOICE (log 5; unsafe): `brInit` at `State.reset`. The spec gives none (10_state R29). -/
def resetBr : Int := 0

end Sys2Proof.Config
end

