-- ==== Sys2Proof/Machine/State.lean ====
section
/-! DEFINITION. The whole state of the block (10_state R20), the reasons a run or a step ends, and the state right after
reset (10_state R38, 70_reset_and_hazards R240 to R242). -/

namespace Sys2Proof.Machine

/-- A data cell: the record of one data entry with exactly one integer payload (10_state R30, 30_encoding R74). The
block reads and writes only `payload`; `tag` and `index` are set at load time (20_memory R52, 30_encoding R73). -/
structure DataCell where
  index   : Int
  tag     : DataTag
  payload : Int
  deriving DecidableEq, Repr

/-- Data memory: the cell at position `k` is the cell at address `k`, and there are `DLEN` of them (20_memory R50, R53,
30_encoding R75). The unit of addressing is one cell and there is no byte view (R51, R58). An address outside
`[0, DLEN)` has no cell and no value: an access to it raises `BadDataAddress` (R55). The address is the position, so
addresses rise strictly, none is listed twice and equal memories are equal data (log 7). -/
abbrev Memory := List DataCell

/-- The recorded reason of a fault (60_exceptions R213, R216 to R220). -/
inductive FaultReason where
  /-- The opcode of the fetched record is a data tag or a code without an instruction (R213; 30_encoding R82, R83). -/
  | invalidOpcode (opcode : Opcode)
  /-- A record with the wrong number of arguments is decoded (R216). -/
  | malformed (record : MachineCode)
  /-- A register field is outside `[0, NREG)` (R217). -/
  | badRegister (field : Int)
  /-- A cell outside `[0, DLEN)` is read or written (R218). -/
  | badDataAddress (address : Int)
  /-- A fetch outside `[0, PLEN)` (R219). -/
  | badPC (pc : Int)
  /-- A remainder by zero (R220). -/
  | divideByZero (dividend : Int)
  deriving DecidableEq, Repr

/-- Run status (10_state R34). Every status but `running` is terminal. -/
inductive Status where
  | running
  | halted
  | endOfInput
  | fault (reason : FaultReason)
  deriving DecidableEq, Repr

/-- The state of the block (10_state R20). `NREG`, `DLEN` and `PLEN` are the lengths of `x`, `dmem` and `pmem`, which
no step changes (20_memory R53; log 10). -/
structure State where
  /-- General registers `x[0]` to `x[NREG-1]` (10_state R21). -/
  x      : List Int
  /-- Program counter, an index into program memory (10_state R24). -/
  pc     : Int
  /-- Tick counter (10_state R25). -/
  tick   : Nat
  /-- Condition flag `Z`, the source's `is_zero` (10_state R26). -/
  z      : Bool
  /-- Data-address latch (10_state R28). -/
  da     : Int
  /-- Buffer latch (10_state R29). -/
  br     : Int
  /-- Data memory (10_state R30). -/
  dmem   : Memory
  /-- Program memory (10_state R31). -/
  pmem   : List MachineCode
  /-- Input queue of character codes, front first (10_state R32). -/
  inq    : List Nat
  /-- Output queue, append-only (10_state R33). -/
  outq   : List Int
  /-- Run status (10_state R34). -/
  status : Status
  deriving DecidableEq, Repr

/-- Why `step` has no next state. A terminal condition of the spec is none of these: it is a next state that holds its
status and every effect made before it (60_exceptions R210; log 1). -/
inductive Fault where
  /-- Raised by `step` alone, in a state whose status is not `running`: the block takes no further step (10_state R34,
  60_exceptions R210). Safe: nothing can be proved about a step the block does not take. -/
  | notRunning (status : Status)
  deriving DecidableEq, Repr

/-- Why an instruction has no meaning. -/
inductive Refusal where
  /-- Raised by an arm of `exec` whose instruction is not modelled yet; no arm raises it now. Safe. -/
  | notModelled (mnemonic : String)
  deriving DecidableEq, Repr

/-- The block right after reset with nothing loaded: `pc = 0`, `tick = 0`, no output, status Running (10_state R38,
70_reset_and_hazards R240, R242). The launch arguments, for which the spec gives no value, are those of `Config`
(logs 2 to 5), and the memories and the input queue are empty, since no image and no input is supplied (log 6).
`Machine/Launch.lean` gives the state for every other choice of launch arguments. -/
def State.reset : State where
  x      := List.replicate Config.resetNreg Config.resetReg
  pc     := 0
  tick   := 0
  z      := Config.resetZ
  da     := Config.resetDa
  br     := Config.resetBr
  dmem   := []
  pmem   := []
  inq    := []
  outq   := []
  status := .running

end Sys2Proof.Machine
end

