-- ==== Sys2Proof/Machine/Ops.lean ====
section
/-! DEFINITION. The named operations over the state: ending the run, ticks and the program counter, registers, latches,
data memory, program memory and the two queues. -/

namespace Sys2Proof.Machine

/-- The terminal conditions (60_exceptions R211 to R213, R216 to R220). -/
inductive Condition where
  | halt
  | endOfInput
  | fault (reason : FaultReason)
  deriving DecidableEq, Repr

/-- The status a condition leaves (60_exceptions R210 to R213). -/
def Condition.status : Condition → Status
  | .halt => .halted
  | .endOfInput => .endOfInput
  | .fault r => .fault r

/-- The condition code a realisation reports (60_exceptions R221). -/
def Condition.code : Condition → Nat
  | .halt => 0
  | .endOfInput => 1
  | .fault (.invalidOpcode _) => 2
  | .fault (.malformed _) => 3
  | .fault (.badRegister _) => 4
  | .fault (.badDataAddress _) => 5
  | .fault (.badPC _) => 6
  | .fault (.divideByZero _) => 7

/-- `raise C(info)`: it sets the status and leaves every other piece of state as the micro-steps before it left it
(60_exceptions R210). There is no handler, nothing is saved and nothing returns (R224). -/
def State.raise (c : Condition) (s : State) : State := { s with status := c.status }

/-- The fault of a record the decoder rejects (30_encoding R83, R85, 60_exceptions R213, R216). -/
def rejectionFault : DecodeRejection → FaultReason
  | .invalidOpcode opcode => .invalidOpcode opcode
  | .malformed record => .malformed record

/-- `NREG` (00_scope R7). -/
def State.nreg (s : State) : Nat := s.x.length

/-- `DLEN` (00_scope R7, 20_memory R53). -/
def State.dlen (s : State) : Nat := s.dmem.length

/-- `PLEN` (00_scope R7, 20_memory R53). -/
def State.plen (s : State) : Nat := s.pmem.length

/-- `charge`: one tick, the only writer of `tick` (40_alu_datapath R116). -/
def State.charge (s : State) : State := { s with tick := s.tick + 1 }

/-- `advance_pc(select_next, value)` (40_alu_datapath R117). -/
def State.advancePc (selectNext : Bool) (value : Int) (s : State) : State :=
  { s with pc := if selectNext then s.pc + 1 else value }

/-- `advance`: the next instruction and one tick (40_alu_datapath R118). -/
def State.advance (s : State) : State := (s.advancePc true 0).charge

/-- `zero()`: the condition flag (40_alu_datapath R115). -/
def State.zero (s : State) : Bool := s.z

/-- A branch on `zero()`, with its tick (41_control_flow R133, R134). -/
def State.branch (t : Int) (s : State) : State :=
  (if s.zero then s.advancePc false t else s.advancePc true 0).charge

/-- `x[r]`, read only behind the check that `r` is in `[0, NREG)` (00_scope R9, 30_encoding R78). -/
def State.reg (r : Int) (s : State) : Int := s.x.getD r.toNat 0

/-- `latch_register`: `x[r] <- v`, once the value is computed (40_alu_datapath R109), behind the same check. -/
def State.latchRegister (r v : Int) (s : State) : State := { s with x := s.x.set r.toNat v }

/-- `latch_data_address`: `da <- a`, never a fault (40_alu_datapath R107, 20_memory R55). -/
def State.latchDataAddress (a : Int) (s : State) : State := { s with da := a }

/-- `latch_buffer_register`: `br <- v` (40_alu_datapath R108). -/
def State.latchBuffer (v : Int) (s : State) : State := { s with br := v }

/-- The condition flag written, by the ALU alone (40_alu_datapath R101). -/
def State.setFlag (b : Bool) (s : State) : State := { s with z := b }

/-- The data cell at an address, if the address is in `[0, DLEN)` (20_memory R50, R55). -/
def State.cell? (a : Int) (s : State) : Option DataCell :=
  if InRange a s.dlen then s.dmem[a.toNat]? else none

/-- The payload at a data address, if there is a cell: the model's read of one unit of memory. -/
def State.payload? (a : Int) (s : State) : Option Int := (s.cell? a).map DataCell.payload

/-- `MemRead(a)` (20_memory R55): the payload, whatever the tag (R52). -/
def State.memRead (a : Int) (s : State) : Except State Int :=
  match s.payload? a with
  | some v => .ok v
  | none => .error (s.raise (.fault (.badDataAddress a)))

/-- The same memory with the payload at a position replaced, tag and index kept (20_memory R52, R55). -/
def Memory.write (k : Nat) (v : Int) (m : Memory) : Memory := m.modify k fun c => { c with payload := v }

/-- The state with the payload of the cell at `a` replaced. -/
def State.setPayload (a v : Int) (s : State) : State := { s with dmem := Memory.write a.toNat v s.dmem }

/-- `MemWrite(a, v)` (20_memory R55). -/
def State.memWrite (a v : Int) (s : State) : Except State State :=
  if InRange a s.dlen then .ok (s.setPayload a v)
  else .error (s.raise (.fault (.badDataAddress a)))

/-- The state with the front of the input queue removed. -/
def State.popInput (s : State) : State := { s with inq := s.inq.tail }

/-- `ReadInput()`: the front code and the state without it, or the end of input (20_memory R62). Code 0 is returned
like any other. -/
def State.readInput (s : State) : Except State (Int × State) :=
  match s.inq with
  | [] => .error (s.raise .endOfInput)
  | c :: _ => .ok ((c : Int), s.popInput)

/-- `WriteOutput(v)` (20_memory R63). -/
def State.writeOutput (v : Int) (s : State) : State := { s with outq := s.outq ++ [v] }

/-- `Fetch()` (20_memory R60). -/
def State.fetch (s : State) : Except State MachineCode :=
  match (if InRange s.pc s.plen then s.pmem[s.pc.toNat]? else none) with
  | some r => .ok r
  | none => .error (s.raise (.fault (.badPC s.pc)))

/-- The memory as (address, cell) pairs: what lies at each address (20_memory R50, R51). -/
def Memory.pairs (m : Memory) : List (Nat × DataCell) := m.zipIdx.map fun p => (p.2, p.1)

/-- The one canonical form: the pairs' addresses are `0 .. DLEN-1`, each once and rising (20_memory R50, R53). -/
abbrev Memory.wf (m : Memory) : Prop := (Memory.pairs m).map Prod.fst = List.range m.length

end Sys2Proof.Machine
end

