-- ==== Sys2Proof/Machine/Flags.lean ====
section
/-! DEFINITION. The ALU and the one flag rule (40_alu_datapath R100 to R105). -/

namespace Sys2Proof.Machine

/-- The closed set of ALU operations (40_alu_datapath R100, R105). -/
inductive AluOp where
  | ADD | MUL | MOD | CMP
  deriving DecidableEq, Repr

/-- The 0/1 rule: only a result of exactly 0 or exactly 1 touches the flag (40_alu_datapath R101, 90_conflicts C2). -/
def flagAfter (result : Int) (z : Bool) : Bool :=
  if result = 0 then true else if result = 1 then false else z

/-- The result of an ALU operation, none where it divides by zero (40_alu_datapath R100). `ADD` and `MUL` are exact
(R102), `MOD` is the floored remainder (R103; log 12), `CMP` tests equality only (R104). -/
def aluResult : AluOp → Int → Int → Option Int
  | .ADD, l, r => some (l + r)
  | .MUL, l, r => some (l * r)
  | .MOD, l, r => if r = 0 then none else some (Int.fmod l r)
  | .CMP, l, r => some (if l = r then 0 else 1)

/-- `alu(op, l, r)` with its flag side effect. `MOD` by zero raises `DivideByZero`, which records the dividend, before
the flag is written (40_alu_datapath R100, R103). -/
def State.alu (op : AluOp) (l r : Int) (s : State) : Except State (Int × State) :=
  match aluResult op l r with
  | some v => .ok (v, s.setFlag (flagAfter v s.z))
  | none => .error (s.raise (.fault (.divideByZero l)))

end Sys2Proof.Machine
end

