-- ==== Sys2Proof/Machine/Operands.lean ====
section
/-! DEFINITION. The operand forms: register fields and their check (30_encoding R78), and the two port operands (R86). -/

namespace Sys2Proof.Machine

/-- Where a data operand of `LOAD_V` or `STORE_V` leads: a port or a data address (30_encoding R86). -/
inductive OperandKind where
  | inputPort
  | outputPort
  | address (a : Int)
  deriving DecidableEq, Repr

/-- The address operand of `LOAD_V`: the input sentinel is the input port, every other value an address, the output
sentinel too (30_encoding R86, 20_memory R61). -/
def loadOperand (a : Int) : OperandKind := if a = Config.inputMap then .inputPort else .address a

/-- The address operand of `STORE_V`: the output sentinel is the output port, every other value an address, the input
sentinel too (30_encoding R86, 20_memory R61). -/
def storeOperand (a : Int) : OperandKind := if a = Config.outputMap then .outputPort else .address a

/-- The first register field, in `args` order, that names no register of a block of `nreg` (30_encoding R78, R85). -/
def badField? (nreg : Nat) (fields : List Int) : Option Int := fields.find? fun v => !decide (InRange v nreg)

/-- An instruction's signals, run in order after the check of its register fields: a bad field raises `BadRegister` with
no signal run, no tick charged and no other state changed (30_encoding R78, R85). A condition raised by a signal ends the
run with the effects made before it (40_alu_datapath R123), so either way there is a next state (log 1). -/
def runSignals (fields : List Int) (signals : State → Except State State) (s : State) :
    Host.Outcome State Fault Refusal :=
  match badField? s.nreg fields with
  | some v => .next (s.raise (.fault (.badRegister v)))
  | none =>
    match signals s with
    | .ok t => .next t
    | .error t => .next t

end Sys2Proof.Machine
end

