-- ==== Sys2Proof/Machine/Arith.lean ====
section
/-! DEFINITION. The arithmetic and compare instructions (43_arithmetic R180 to R186): the signal sequences of
40_alu_datapath R119, each ended by `advance`. Every ALU call writes the flag by the 0/1 rule. -/

namespace Sys2Proof.Machine

/-- `CMP ra, rb`: only the flag keeps the result (43_arithmetic R181). -/
def execCmp (ra rb : Int) (s : State) : Host.Outcome State Fault Refusal :=
  runSignals [ra, rb] (fun s => do
    let (_, s) ← s.alu .CMP (s.reg ra) (s.reg rb)
    return s.advance) s

/-- `INC rd` (43_arithmetic R182). -/
def execInc (rd : Int) (s : State) : Host.Outcome State Fault Refusal :=
  runSignals [rd] (fun s => do
    let (v, s) ← s.alu .ADD (s.reg rd) 1
    return (s.latchRegister rd v).advance) s

/-- `ADD_MMR md, ms, rs`: both addresses are literal cell addresses and no port is intercepted. A bad destination is found
after the sum has written the flag (43_arithmetic R183). -/
def execAddMmr (md ms rs : Int) (s : State) : Host.Outcome State Fault Refusal :=
  runSignals [rs] (fun s => do
    let s := (s.latchDataAddress ms).charge
    let m ← s.memRead s.da
    let s := (s.latchBuffer m).charge
    let s := (s.latchDataAddress md).charge
    let (v, s) ← s.alu .ADD s.br (s.reg rs)
    let s ← s.memWrite s.da v
    return s.advance) s

/-- `MOD_RRV rd, rs, imm`: the source goes through the buffer latch; a zero `imm` divides by zero with `x[rd]` and the
flag unwritten (43_arithmetic R184). -/
def execModRrv (rd rs imm : Int) (s : State) : Host.Outcome State Fault Refusal :=
  runSignals [rd, rs] (fun s => do
    let s := (s.latchBuffer (s.reg rs)).charge
    let (v, s) ← s.alu .MOD s.br imm
    return (s.latchRegister rd v).advance) s

/-- `LINEAR rd, ri, imm`: the multiplier goes through the buffer latch (43_arithmetic R185). -/
def execLinear (rd ri imm : Int) (s : State) : Host.Outcome State Fault Refusal :=
  runSignals [rd, ri] (fun s => do
    let s := (s.latchBuffer imm).charge
    let (v, s) ← s.alu .MUL s.br (s.reg ri)
    return (s.latchRegister rd v).advance) s

/-- `LINEAR_CONT rd, ri, imm`: two ALU calls, the flag rule after each; the index is read before the accumulator is
written (43_arithmetic R186). -/
def execLinearCont (rd ri imm : Int) (s : State) : Host.Outcome State Fault Refusal :=
  runSignals [rd, ri] (fun s => do
    let s := (s.latchBuffer imm).charge
    let (p, s) ← s.alu .MUL s.br (s.reg ri)
    let s := (s.latchBuffer p).charge
    let (v, s) ← s.alu .ADD (s.reg rd) s.br
    return (s.latchRegister rd v).advance) s

end Sys2Proof.Machine
end

