-- ==== Sys2Proof/Machine/Control.lean ====
section
/-! DEFINITION. The control-flow instructions (41_control_flow R130 to R134). Each charges its own ticks and none ends
with the uniform `advance`. -/

namespace Sys2Proof.Machine

/-- `HLT`: the run halts, no tick is charged and `pc` keeps the index of the `HLT` (41_control_flow R131). -/
def execHlt (s : State) : Host.Outcome State Fault Refusal := .next (s.raise .halt)

/-- `JMP t`: the target is absolute and unchecked until the next fetch (41_control_flow R132, 30_encoding R81). -/
def execJmp (t : Int) (s : State) : Host.Outcome State Fault Refusal := .next (s.advancePc false t).charge

/-- `JZ t`: a branch on the flag as it is, with no new comparison (41_control_flow R133). -/
def execJz (t : Int) (s : State) : Host.Outcome State Fault Refusal := .next (s.branch t)

/-- `JZ_R t, r`: an explicit compare of the register with 0, then the branch (41_control_flow R134). -/
def execJzR (t r : Int) (s : State) : Host.Outcome State Fault Refusal :=
  runSignals [r] (fun s => do
    let (_, s) ← s.alu .CMP (s.reg r) 0
    return s.charge.branch t) s

end Sys2Proof.Machine
end

