-- ==== Sys2Proof/Machine/DataTags.lean ====
section
/-! DEFINITION. The data tags in the place of an instruction: executing one raises `InvalidOpcode`, with any arguments, no
tick charged and no other state changed (30_encoding R82, R85, 60_exceptions R213). -/

namespace Sys2Proof.Machine

/-- A data tag is executed (60_exceptions R213). -/
def State.invalidOpcode (tag : Opcode) (s : State) : State := s.raise (.fault (.invalidOpcode tag))

/-- `NUMBER` executed (30_encoding R82). -/
def execNumber (s : State) : Host.Outcome State Fault Refusal := .next (s.invalidOpcode .NUMBER)

/-- `STRING` executed (30_encoding R82). -/
def execString (s : State) : Host.Outcome State Fault Refusal := .next (s.invalidOpcode .STRING)

/-- `BUFFER` executed (30_encoding R82). -/
def execBuffer (s : State) : Host.Outcome State Fault Refusal := .next (s.invalidOpcode .BUFFER)

end Sys2Proof.Machine
end

