-- ==== Sys2Proof/Machine/Move.lean ====
section
/-! DEFINITION. The data-movement instructions (42_data_movement R150 to R156): the signal sequences of 40_alu_datapath
R119, each ended by `advance`. -/

namespace Sys2Proof.Machine

/-- `MOV rd, imm` (42_data_movement R151). -/
def execMov (rd imm : Int) (s : State) : Host.Outcome State Fault Refusal :=
  runSignals [rd] (fun s => return (s.latchRegister rd imm).advance) s

/-- `LOAD_V rd, a`: the input port when `a` is the input sentinel, else the cell at `a`. The test is on the operand; the
latch holds it either way (42_data_movement R152, 40_alu_datapath R110). -/
def execLoadV (rd a : Int) (s : State) : Host.Outcome State Fault Refusal :=
  runSignals [rd] (fun s => do
    let s := (s.latchDataAddress a).charge
    match loadOperand a with
    | .inputPort =>
      let (v, s) ← s.readInput
      return (s.latchRegister rd v).advance
    | .outputPort | .address _ =>
      let v ← s.memRead s.da
      return (s.latchRegister rd v).advance) s

/-- `LOAD_R rd, rp`: the address is latched before the register is overwritten, and no port is intercepted
(42_data_movement R153). -/
def execLoadR (rd rp : Int) (s : State) : Host.Outcome State Fault Refusal :=
  runSignals [rd, rp] (fun s => do
    let s := (s.latchDataAddress (s.reg rp)).charge
    let v ← s.memRead s.da
    return (s.latchRegister rd v).advance) s

/-- `STORE_V a, rs`: the output port when `a` is the output sentinel, else the cell at `a` (42_data_movement R154). -/
def execStoreV (a rs : Int) (s : State) : Host.Outcome State Fault Refusal :=
  runSignals [rs] (fun s => do
    let s := (s.latchDataAddress a).charge
    match storeOperand a with
    | .outputPort => return (s.writeOutput (s.reg rs)).advance
    | .inputPort | .address _ =>
      let s ← s.memWrite s.da (s.reg rs)
      return s.advance) s

/-- `STORE_R rp, rs`: no port is intercepted (42_data_movement R155). -/
def execStoreR (rp rs : Int) (s : State) : Host.Outcome State Fault Refusal :=
  runSignals [rp, rs] (fun s => do
    let s := (s.latchDataAddress (s.reg rp)).charge
    let s ← s.memWrite s.da (s.reg rs)
    return s.advance) s

/-- `NEXT rd, rp`: the pointer is incremented through the ALU, then the cell it now points to is read (42_data_movement
R156, 90_conflicts C1). A bad address leaves the pointer incremented and the flag written. -/
def execNext (rd rp : Int) (s : State) : Host.Outcome State Fault Refusal :=
  runSignals [rd, rp] (fun s => do
    let (p, s) ← s.alu .ADD (s.reg rp) 1
    let s := (s.latchRegister rp p).charge
    let s := (s.latchDataAddress (s.reg rp)).charge
    let v ← s.memRead s.da
    return (s.latchRegister rd v).advance) s

end Sys2Proof.Machine
end

