-- ==== Sys2Proof/Machine/Dispatch.lean ====
section
/-! DEFINITION. One arm per instruction: each a direct call of its meaning. -/

namespace Sys2Proof.Machine
open Sys2Proof

def exec (i : Instr) (s : State) : Host.Outcome State Fault Refusal :=
  match i with
  | .hlt => Sys2Proof.Machine.execHlt s
  | .jmp t => Sys2Proof.Machine.execJmp t s
  | .jz t => Sys2Proof.Machine.execJz t s
  | .jzR t r => Sys2Proof.Machine.execJzR t r s
  | .mov rd imm => Sys2Proof.Machine.execMov rd imm s
  | .loadV rd a => Sys2Proof.Machine.execLoadV rd a s
  | .loadR rd rp => Sys2Proof.Machine.execLoadR rd rp s
  | .storeV a rs => Sys2Proof.Machine.execStoreV a rs s
  | .storeR rp rs => Sys2Proof.Machine.execStoreR rp rs s
  | .next rd rp => Sys2Proof.Machine.execNext rd rp s
  | .cmp ra rb => Sys2Proof.Machine.execCmp ra rb s
  | .inc rd => Sys2Proof.Machine.execInc rd s
  | .addMmr md ms rs => Sys2Proof.Machine.execAddMmr md ms rs s
  | .modRrv rd rs imm => Sys2Proof.Machine.execModRrv rd rs imm s
  | .linear rd ri imm => Sys2Proof.Machine.execLinear rd ri imm s
  | .linearCont rd ri imm => Sys2Proof.Machine.execLinearCont rd ri imm s
  | .number _ => Sys2Proof.Machine.execNumber s
  | .string _ => Sys2Proof.Machine.execString s
  | .buffer _ => Sys2Proof.Machine.execBuffer s

end Sys2Proof.Machine
end

