-- ==== Sys2Proof/Machine/Step.lean ====
section
/-! DEFINITION. One call of the control unit's `step()` (40_alu_datapath R120), and how a lone instruction is placed for
the next one. -/

namespace Sys2Proof.Machine

/-- `step()`: it needs status Running (10_state R34), fetches (20_memory R60), decodes (30_encoding R85) and executes one
instruction (40_alu_datapath R120). A condition raised at the fetch or at decode is a next state that holds it. -/
def step (s : State) : Host.Outcome State Fault Refusal :=
  if s.status = .running then
    match s.fetch with
    | .error t => .next t
    | .ok r =>
      match decode r with
      | .error e => .next (s.raise (.fault (rejectionFault e)))
      | .ok i => exec i s
  else .fault (.notRunning s.status)

/-- `s` with the record placed where `step` fetches next, and running. At a `pc` inside program memory the record there is
replaced; at any other `pc` there is nothing to replace, and the record is loaded as a program of one instruction, which
starts at index 0 (70_reset_and_hazards R240, R241). -/
def State.withRecord (r : MachineCode) (s : State) : State :=
  if InRange s.pc s.plen then { s with pmem := s.pmem.set s.pc.toNat r, status := .running }
  else { s with pmem := [r], pc := 0, status := .running }

/-- `s` with the instruction of word `w` placed where `step` fetches next (log 8). A code of 19 to 31 is placed too,
and the next step raises `InvalidOpcode` (30_encoding R83). A word of more than 5 bits changes nothing. -/
def State.withFetchWord (s : State) (nbits w : Nat) : State :=
  let _ := nbits
  match recordOfWord? w with
  | none => s
  | some r => s.withRecord r

end Sys2Proof.Machine
end

