-- ==== Sys2Proof/Machine/Drive.lean ====
section
/-! DEFINITION. The contract the block keeps with its driving loop (60_exceptions R225, R226, R229). The loop is outside
the block: it loads, calls `step` and bounds the ticks; printing and tracing are its own. -/

namespace Sys2Proof.Machine

/-- What the loop has when it stops: the state, and the count of `step` calls, the one that ended the run among them
(60_exceptions R226). -/
structure DriveResult where
  state      : State
  instrCount : Nat
  deriving DecidableEq, Repr

/-- The loop's condition: status Running and `tick < maxTicks` (60_exceptions R225). -/
def State.drivable (maxTicks : Nat) (s : State) : Bool := s.status = .running && s.tick < maxTicks

/-- At most `fuel` turns of the loop of 60_exceptions R225, from a count of calls made so far. `step` has a next state
wherever the loop calls it, so the other two outcomes never stop it. -/
def driveLoop (maxTicks : Nat) : Nat → DriveResult → DriveResult
  | 0, r => r
  | fuel + 1, r =>
    if r.state.drivable maxTicks then
      match step r.state with
      | .next t => driveLoop maxTicks fuel ⟨t, r.instrCount + 1⟩
      | .fault _ | .refused _ => r
    else r

/-- `Run` after the load (60_exceptions R225). Every step that leaves the block running charges a tick, so
`maxTicks + 1` turns are enough for the loop to stop by its own condition. -/
def drive (maxTicks : Nat) (s : State) : DriveResult := driveLoop maxTicks (maxTicks + 1) ⟨s, 0⟩

end Sys2Proof.Machine
end

