-- ==== Sys2Proof/Machine/Launch.lean ====
section
/-! DEFINITION. Starting the block: the image, its loader, the launch arguments and the state they give (30_encoding R75,
70_reset_and_hazards R240 to R243, 60_exceptions R215). -/

namespace Sys2Proof.Machine

/-- One entry of the program image, its opcode serialized as a mnemonic string (30_encoding R71, R75). -/
structure ImageEntry where
  index  : Int
  opcode : String
  args   : List Int
  deriving DecidableEq, Repr

/-- The program image: its first element, and the entries after it (30_encoding R75). The container that serializes the
sequence is not in the source and is not modelled. -/
structure Image where
  dataLength : Int
  entries    : List ImageEntry
  deriving DecidableEq, Repr

/-- Why the block is never started (60_exceptions R215, 30_encoding R75). -/
inductive LaunchError where
  /-- `NREG` is zero or less (60_exceptions R215). -/
  | contractViolation (nreg : Int)
  /-- `data_length` is negative or larger than the number of remaining entries (30_encoding R75). -/
  | badDataLength (dataLength : Int)
  /-- A data entry's opcode is no data tag, or it has not exactly one argument (30_encoding R75). -/
  | badDataEntry (entry : ImageEntry)
  /-- A code entry's opcode string is none of the 19 tags (30_encoding R75). -/
  | badCodeEntry (entry : ImageEntry)
  deriving DecidableEq, Repr

/-- The cell of a data entry (30_encoding R74, R75). -/
def ImageEntry.dataCell? (e : ImageEntry) : Option DataCell :=
  match (Opcode.ofMnemonic? e.opcode).bind Opcode.dataTag, e.args with
  | some tag, [v] => some ⟨e.index, tag, v⟩
  | _, _ => none

/-- The record of a code entry. A data tag loads, and faults when it is executed (30_encoding R75, R82). -/
def ImageEntry.record? (e : ImageEntry) : Option MachineCode :=
  (Opcode.ofMnemonic? e.opcode).map fun op => ⟨e.index, op, e.args⟩

/-- Every entry by `f`, in order: its position is its address or index (30_encoding R75). The first entry `f` refuses is
named by `err`. -/
def loadEntries {α : Type} (f : ImageEntry → Option α) (err : ImageEntry → LaunchError) :
    List ImageEntry → Except LaunchError (List α)
  | [] => .ok []
  | e :: es =>
    match f e with
    | none => .error (err e)
    | some a =>
      match loadEntries f err es with
      | .error r => .error r
      | .ok as => .ok (a :: as)

/-- `Load(image)`: the two memories, the data segment first (30_encoding R75). -/
def Image.load (image : Image) : Except LaunchError (Memory × List MachineCode) :=
  if 0 ≤ image.dataLength ∧ image.dataLength ≤ (image.entries.length : Int) then
    match loadEntries ImageEntry.dataCell? .badDataEntry (image.entries.take image.dataLength.toNat) with
    | .error r => .error r
    | .ok cells =>
      match loadEntries ImageEntry.record? .badCodeEntry (image.entries.drop image.dataLength.toNat) with
      | .error r => .error r
      | .ok code => .ok (cells, code)
  else .error (.badDataLength image.dataLength)

/-- The launch arguments (00_scope R7, 70_reset_and_hazards R243). -/
structure Launch where
  nreg    : Int
  regInit : Nat → Int
  zInit   : Bool
  daInit  : Int
  brInit  : Int
  image   : Image
  input   : List Nat

/-- The state the block starts in, or why it is never started: `NREG` first, then the image (70_reset_and_hazards R243),
then every field as 10_state R38 says. -/
def Launch.start (l : Launch) : Except LaunchError State :=
  if 0 < l.nreg then
    match l.image.load with
    | .error r => .error r
    | .ok (cells, code) =>
      .ok { x := (List.range l.nreg.toNat).map l.regInit, pc := 0, tick := 0, z := l.zInit, da := l.daInit, br := l.brInit,
            dmem := cells, pmem := code, inq := l.input, outq := [], status := .running }
  else .error (.contractViolation l.nreg)

/-- The launch `State.reset` is the state of: the values of `Config`, the empty image and no input (logs 2 to 6). -/
def Launch.ofConfig : Launch where
  nreg    := Config.resetNreg
  regInit := fun _ => Config.resetReg
  zInit   := Config.resetZ
  daInit  := Config.resetDa
  brInit  := Config.resetBr
  image   := ⟨0, []⟩
  input   := []

end Sys2Proof.Machine
end

