-- ==== Sys2Proof/Safety.lean ====
section
/-! DEFINITION. The terms the claims use: ended and normally ended runs and their result, the tick cost and the destination
registers of an instruction, what one write to a register or a cell changes, what a launch fixes for the whole run, and
the parts of a state the block never consults. -/

namespace Sys2Proof

/-- The tick cost of a completed step (40_alu_datapath R121). A data tag charges none (30_encoding R82). -/
def Instr.ticks : Instr → Nat
  | .hlt => 0
  | .jmp _ => 1
  | .jz _ => 1
  | .jzR .. => 2
  | .mov .. => 1
  | .loadV .. => 2
  | .loadR .. => 2
  | .storeV .. => 2
  | .storeR .. => 2
  | .next .. => 3
  | .cmp .. => 1
  | .inc _ => 1
  | .addMmr .. => 4
  | .modRrv .. => 2
  | .linear .. => 2
  | .linearCont .. => 3
  | .number _ => 0
  | .string _ => 0
  | .buffer _ => 0

/-- The registers an instruction may write (10_state R22). -/
def Instr.destinations : Instr → List Int
  | .mov rd _ => [rd]
  | .loadV rd _ => [rd]
  | .loadR rd _ => [rd]
  | .next rd rp => [rd, rp]
  | .inc rd => [rd]
  | .modRrv rd _ _ => [rd]
  | .linear rd _ _ => [rd]
  | .linearCont rd _ _ => [rd]
  | .hlt | .jmp _ | .jz _ | .jzR .. | .storeV .. | .storeR .. | .cmp .. | .addMmr .. | .number _ | .string _
  | .buffer _ => []

/-- The four opcodes the control unit dispatches before any signal sequence (41_control_flow R130). -/
def Instr.isControlFlow : Instr → Bool
  | .hlt | .jmp _ | .jz _ | .jzR .. => true
  | .mov .. | .loadV .. | .loadR .. | .storeV .. | .storeR .. | .next .. | .cmp .. | .inc _ | .addMmr .. | .modRrv ..
  | .linear .. | .linearCont .. | .number _ | .string _ | .buffer _ => false

/-- A record of this opcode is this instruction when it has these arguments, whatever its index, and `Malformed` when it
has another number of arguments (30_encoding R73, R76, R77; decision D17). -/
def Encoded (op : Opcode) (args : List Int) (i : Instr) : Prop :=
  (∀ k, decode ⟨k, op, args⟩ = .ok i) ∧
  ∀ k bad, bad.length ≠ args.length → decode ⟨k, op, bad⟩ = .error (.malformed ⟨k, op, bad⟩)

namespace Machine

/-- The run has ended (60_exceptions R229). -/
def State.ended (s : State) : Bool := s.status ≠ .running

/-- The run has ended normally: by `HLT` or at the end of the input. A fault is no normal end (60_exceptions R221,
R225). -/
def State.endedNormally (s : State) : Bool := s.status = .halted || s.status = .endOfInput

/-- The result of an ended run (60_exceptions R229). DESIGN CHOICE (log 18; safe): the spec does not say whether the final
data memory of a result carries the cells' tags and indexes; `cells` keeps the payloads alone, in address order. -/
structure RunResult where
  outq   : List Int
  tick   : Nat
  status : Status
  x      : List Int
  cells  : List Int
  deriving DecidableEq, Repr

/-- The result of the run that ended in a state, none while it runs (60_exceptions R229). -/
def State.result? (s : State) : Option RunResult :=
  if s.ended then some ⟨s.outq, s.tick, s.status, s.x, s.dmem.map DataCell.payload⟩ else none

/-- The record at `pc`, where `pc` is in program memory: what the next step fetches (20_memory R60). -/
def State.record? (s : State) : Option MachineCode := if InRange s.pc s.plen then s.pmem[s.pc.toNat]? else none

/-- From `s` to `t`, register `r` got the value `v` and every other register kept its own. -/
def State.wroteReg (s t : State) (r v : Int) : Prop :=
  t.nreg = s.nreg ∧ t.reg r = v ∧ ∀ q, InRange q s.nreg → q ≠ r → t.reg q = s.reg q

/-- From `s` to `t`, the cell at `a` got the payload `v` and kept its index and tag, and every other address reads as
before, the addresses without a cell too. -/
def State.wroteCell (s t : State) (a v : Int) : Prop :=
  (∃ c, s.cell? a = some c ∧ t.cell? a = some { c with payload := v }) ∧ ∀ b, b ≠ a → t.cell? b = s.cell? b

/-- A data cell without its payload: what the load fixes of it (20_memory R52, 30_encoding R73). -/
def DataCell.label (c : DataCell) : Int × DataTag := (c.index, c.tag)

/-- What the launch fixes for the run's lifetime: `NREG`, `DLEN` with every cell's index and tag, and program memory
(20_memory R52, R53, R68). -/
structure Shape where
  nreg   : Nat
  labels : List (Int × DataTag)
  pmem   : List MachineCode
  deriving DecidableEq, Repr

/-- The shape of a state. -/
def State.shape (s : State) : Shape := ⟨s.nreg, s.dmem.map DataCell.label, s.pmem⟩

/-- The state with both latches at zero: what two states that differ at most in the latches share (10_state R37). -/
def State.noLatches (s : State) : State := { s with da := 0, br := 0 }

/-- The state with other cell labels: every cell keeps its payload and gets the index and tag `f` gives its address. -/
def State.relabel (f : Nat → Int × DataTag) (s : State) : State :=
  { s with dmem := s.dmem.mapIdx fun k c => ⟨(f k).1, (f k).2, c.payload⟩ }

/-- An outcome's next state mapped; a fault or a refusal as it is. -/
def mapNext (f : State → State) : Host.Outcome State Fault Refusal → Host.Outcome State Fault Refusal
  | .next s => .next (f s)
  | .fault r => .fault r
  | .refused r => .refused r

end Machine

end Sys2Proof
end

