-- ==== Sys2Proof/Certificates/Slice0/Obligations.lean ====
section
/-! DEFINITION. The statements for the provers. A clause that rests on the spec's own decision D<n> (92_eei_decisions) or on
an entry of the assumption log is named in its docstring. -/

open Sys2Proof Sys2Proof.Machine

/-! Encoding -/

/-- Decoding the record of an instruction gives it back, every operand at every integer. The operand positions are those of
30_encoding section 3, decision D10 for ten opcodes. -/
def Obligations.DecodeOfEncodeIsIdentity : Prop :=
  ∀ (k : Int) (i : Instr), decode (encode k i) = .ok i

/-- A record that decodes is the record of its instruction, so no two instructions share a record and no argument is
dropped (30_encoding section 3, decision D10). -/
def Obligations.EncodeOfDecodeIsTheRecord : Prop :=
  ∀ (r : MachineCode) (i : Instr), decode r = .ok i → encode r.index i = r

/-- What the model's `decode` accepts. Of the three checks of 30_encoding section 6 it makes the arity check (section 4,
decision D17): an instruction tag with its arity of arguments decodes, and with any other number is `Malformed`. That a data
tag decodes with any number, and that a register field is not checked here, is the model's own split of the checks, not
the spec's (log 9): those two checks are made in `exec`. A code without a tag, which only a binary realisation holds, is
refused with any number (section 5, decision D18; log 17). -/
def Obligations.DecodeRefusesWrongAritiesAndUntaggedCodes : Prop :=
  ∀ r : MachineCode,
    (r.opcode.dataTag ≠ none → ∃ i, decode r = .ok i) ∧
    (r.opcode.isInstr = true → r.args.length = r.opcode.arity → ∃ i, decode r = .ok i) ∧
    (r.opcode.isInstr = true → r.args.length ≠ r.opcode.arity → decode r = .error (.malformed r)) ∧
    (∀ k, r.opcode = .untagged k → decode r = .error (.invalidOpcode r.opcode))

/-- Records written out from the source's own examples and from the layout table decode to what they stand for
(30_encoding section 3, decision D10 for `ADD_MMR` and `LINEAR_CONT`). The last record is in neither: that a `BUFFER` record
decodes, with any arguments, is the model's own split of the checks (log 9), and a step of it raises `InvalidOpcode`. -/
def Obligations.RecordsWrittenFromTheSpecDecode : Prop :=
  decode ⟨0, .MOV, [0, 5]⟩ = .ok (.mov 0 5) ∧
  decode ⟨3, .LOAD_V, [2, 0]⟩ = .ok (.loadV 2 0) ∧
  decode ⟨4, .STORE_V, [1, 7]⟩ = .ok (.storeV 1 7) ∧
  decode ⟨9, .JZ_R, [6, 1]⟩ = .ok (.jzR 6 1) ∧
  decode ⟨1, .ADD_MMR, [6, 5, 1]⟩ = .ok (.addMmr 6 5 1) ∧
  decode ⟨2, .LINEAR_CONT, [1, 2, -4]⟩ = .ok (.linearCont 1 2 (-4)) ∧
  decode ⟨5, .BUFFER, [0, 9]⟩ = .ok (.buffer [0, 9])

/-- A binary opcode field of 5 bits holds exactly the codes 0 to 31, each of one opcode: below 16 an instruction tag, below
19 a data tag, and from 19 on no tag (30_encoding section 5, decision D18; log 17). A mnemonic string names one tag, and
only a code without a tag has none (section 1). -/
def Obligations.OrdinalsAndMnemonicsNameTheTags : Prop :=
  (∀ c op, Opcode.ofOrdinal? c = some op ↔ op.ordinal = c) ∧
  (∀ c, Opcode.ofOrdinal? c = none ↔ 32 ≤ c) ∧
  (∀ op : Opcode, (op.isInstr = true ↔ op.ordinal < 16) ∧ (op.dataTag ≠ none ↔ 16 ≤ op.ordinal ∧ op.ordinal < 19) ∧
    (op.mnemonic = none ↔ 19 ≤ op.ordinal)) ∧
  (∀ name op, Opcode.ofMnemonic? name = some op ↔ op.mnemonic = some name)

/-! The step -/

/-- A running step runs the instruction its record decodes to (40_alu_datapath section 3). -/
def Obligations.StepRunsTheDecodedInstruction : Prop :=
  ∀ (s : State) (r : MachineCode) (i : Instr),
    s.status = .running → InRange s.pc s.plen → s.pmem[s.pc.toNat]? = some r → decode r = .ok i → step s = exec i s

/-- A running block always has a next state, a terminal condition being one too, and a block whose run has ended takes no
step: the model's `step` then stops with `notRunning` (log 1; decision D21). -/
def Obligations.BlockStepsExactlyWhileRunning : Prop :=
  ∀ s : State, (s.status = .running → ∃ t, step s = .next t) ∧ (s.status ≠ .running → step s = .fault (.notRunning s.status))

/-- A fetch outside `[0, PLEN)` raises `BadPC` before any tick, with nothing else changed (decision D9). -/
def Obligations.FetchOutsideProgramMemoryRaisesBadPC : Prop :=
  ∀ s : State, s.status = .running → ¬ InRange s.pc s.plen → step s = .next { s with status := .fault (.badPC s.pc) }

/-- The checks at decode, in their order: a data tag or a code without an instruction, then the arity, then the register fields, of which the first bad one
is recorded; each with no tick and nothing else changed (30_encoding sections 5 and 6, decisions D4, D17, D18, D28; log 17
for the value recorded of a code). -/
def Obligations.DecodeFaultsInTheirOrder : Prop :=
  ∀ (s : State) (r : MachineCode), s.status = .running → s.record? = some r →
    (r.opcode.isInstr = false → step s = .next { s with status := .fault (.invalidOpcode r.opcode) }) ∧
    (r.opcode.isInstr = true → r.args.length ≠ r.opcode.arity → step s = .next { s with status := .fault (.malformed r) }) ∧
    (∀ i v, r.opcode.isInstr = true → decode r = .ok i → i.regFields.find? (fun w => !decide (InRange w s.nreg)) = some v →
      step s = .next { s with status := .fault (.badRegister v) })

/-- An instruction with a register field outside `[0, NREG)` has no effect but `BadRegister`, which records the first such
field in `args` order; this holds of every instruction (30_encoding section 4, decision D4; log 9). -/
def Obligations.BadRegisterFieldStopsEveryInstruction : Prop :=
  ∀ (i : Instr) (s : State) (pre post : List Int) (v : Int),
    i.regFields = pre ++ v :: post → (∀ w ∈ pre, InRange w s.nreg) → ¬ InRange v s.nreg →
    exec i s = .next { s with status := .fault (.badRegister v) }

/-! Control flow -/

/-- `HLT` (60_exceptions R211): status Halted, no tick, `pc` keeps the index of the `HLT`. -/
def Obligations.HltHaltsWithoutATick : Prop :=
  ∀ s : State, exec .hlt s = .next { s with status := .halted }

/-- `JMP t`, with the fault of the next fetch where `t` is outside program memory (41_control_flow, `JMP`; decisions D9,
D17, D30). -/
def Obligations.JmpSetsThePc : Prop :=
  ∀ (s : State) (t : Int),
    Encoded .JMP [t] (.jmp t) ∧
    exec (.jmp t) s = .next { s with pc := t, tick := s.tick + 1 } ∧
    (s.status = .running → ¬ InRange t s.plen →
      step { s with pc := t, tick := s.tick + 1 } = .next { s with pc := t, tick := s.tick + 1, status := .fault (.badPC t) })

/-- `JZ t` (41_control_flow, `JZ`): taken when the flag is set, which the spec marks as derived, one tick either way, the flag
read and not written. A wrong number of arguments is decision D17, the fault of the next fetch D9 and D30. -/
def Obligations.JzBranchesOnTheFlag : Prop :=
  ∀ (s : State) (t : Int),
    Encoded .JZ [t] (.jz t) ∧
    exec (.jz t) s = .next { s with pc := if s.z = true then t else s.pc + 1, tick := s.tick + 1 } ∧
    (s.status = .running → s.z = true → ¬ InRange t s.plen →
      step { s with pc := t, tick := s.tick + 1 } = .next { s with pc := t, tick := s.tick + 1, status := .fault (.badPC t) })

/-- `JZ_R t, r` (41_control_flow, `JZ_R`): the flag gets the comparison of the register with 0 and decides the branch, two
ticks either way. `BadRegister` is decision D4, and that `exec` raises it the model's (log 9); a wrong number of arguments
is D17, the fault of the next fetch D9 and D30. -/
def Obligations.JzRComparesAndBranches : Prop :=
  ∀ (s : State) (t r : Int),
    Encoded .JZ_R [t, r] (.jzR t r) ∧
    (InRange r s.nreg → exec (.jzR t r) s =
      .next { s with z := decide (s.reg r = 0), pc := if s.reg r = 0 then t else s.pc + 1, tick := s.tick + 2 }) ∧
    (¬ InRange r s.nreg → exec (.jzR t r) s = .next { s with status := .fault (.badRegister r) }) ∧
    (s.status = .running → InRange r s.nreg → s.reg r = 0 → ¬ InRange t s.plen → ∃ u, exec (.jzR t r) s = .next u ∧
      step u = .next { u with status := .fault (.badPC t) })

/-! Data movement -/

/-- `MOV rd, imm` (42_data_movement, `MOV`): any integer (decision D1) stored unchanged, one tick; no flag and no latch
written. `BadRegister` is decision D4, and that `exec` raises it the model's (log 9); a wrong number of arguments is D17. -/
def Obligations.MovStoresTheLiteral : Prop :=
  ∀ (s : State) (rd imm : Int),
    Encoded .MOV [rd, imm] (.mov rd imm) ∧
    (InRange rd s.nreg → ∃ t, exec (.mov rd imm) s = .next t ∧ s.wroteReg t rd imm ∧
      t = { s with x := t.x, pc := s.pc + 1, tick := s.tick + 1 }) ∧
    (¬ InRange rd s.nreg → exec (.mov rd imm) s = .next { s with status := .fault (.badRegister rd) })

/-- `LOAD_V rd, 0` with input (40_alu_datapath R110): the register gets the front code, whatever it is, no cell is read, for
any `DLEN`, and `da` keeps the 0. -/
def Obligations.LoadVFromTheInputPort : Prop :=
  ∀ (s : State) (rd : Int) (c : Nat) (rest : List Nat), InRange rd s.nreg → s.inq = c :: rest →
    ∃ t, exec (.loadV rd 0) s = .next t ∧ s.wroteReg t rd c ∧
      t = { s with x := t.x, da := 0, inq := rest, pc := s.pc + 1, tick := s.tick + 2 }

/-- `EndOfInput` (60_exceptions R212): one tick, `da = 0`, the register and `pc` unchanged, the output kept. -/
def Obligations.LoadVAtTheEndOfInput : Prop :=
  ∀ (s : State) (rd : Int), InRange rd s.nreg → s.inq = [] →
    exec (.loadV rd 0) s = .next { s with da := 0, tick := s.tick + 1, status := .endOfInput }

/-- `LOAD_V rd, a` from a cell, the output sentinel's cell 1 too (42_data_movement, `LOAD_V`; decisions D15, D16, D17). -/
def Obligations.LoadVFromACell : Prop :=
  ∀ (s : State) (rd a v : Int), Encoded .LOAD_V [rd, a] (.loadV rd a) ∧
    (InRange rd s.nreg → a ≠ 0 → s.payload? a = some v →
      ∃ t, exec (.loadV rd a) s = .next t ∧ s.wroteReg t rd v ∧
        t = { s with x := t.x, da := a, pc := s.pc + 1, tick := s.tick + 2 })

/-- `LOAD_R rd, rp`, `rd = rp` and the addresses 0 and 1 too (42_data_movement, `LOAD_R`; decisions D10, D15, D17). -/
def Obligations.LoadRFromThePointedCell : Prop :=
  ∀ (s : State) (rd rp v : Int), Encoded .LOAD_R [rd, rp] (.loadR rd rp) ∧
    (InRange rd s.nreg → InRange rp s.nreg → s.payload? (s.reg rp) = some v →
      ∃ t, exec (.loadR rd rp) s = .next t ∧ s.wroteReg t rd v ∧
        t = { s with x := t.x, da := s.reg rp, pc := s.pc + 1, tick := s.tick + 2 })

/-- `STORE_V 1, rs` (20_memory R63): the register's integer is appended to the output unchanged, and no cell is written, for
any `DLEN`. -/
def Obligations.StoreVToTheOutputPort : Prop :=
  ∀ (s : State) (rs : Int), InRange rs s.nreg →
    exec (.storeV 1 rs) s =
      .next { s with da := 1, outq := s.outq ++ [s.reg rs], pc := s.pc + 1, tick := s.tick + 2 }

/-- `STORE_V a, rs` to a cell, the input sentinel's cell 0 too: that cell's payload and no other (42_data_movement,
`STORE_V`; decisions D15, D16, D17, D26). -/
def Obligations.StoreVToACell : Prop :=
  ∀ (s : State) (a rs : Int), Encoded .STORE_V [a, rs] (.storeV a rs) ∧
    (InRange rs s.nreg → a ≠ 1 → InRange a s.dlen →
      ∃ t, exec (.storeV a rs) s = .next t ∧ s.wroteCell t a (s.reg rs) ∧
        t = { s with dmem := t.dmem, da := a, pc := s.pc + 1, tick := s.tick + 2 })

/-- `STORE_R rp, rs`, `rp = rs` and the addresses 0 and 1 too (42_data_movement, `STORE_R`; decisions D10, D15, D17, D26). -/
def Obligations.StoreRToThePointedCell : Prop :=
  ∀ (s : State) (rp rs : Int), Encoded .STORE_R [rp, rs] (.storeR rp rs) ∧
    (InRange rp s.nreg → InRange rs s.nreg → InRange (s.reg rp) s.dlen →
      ∃ t, exec (.storeR rp rs) s = .next t ∧ s.wroteCell t (s.reg rp) (s.reg rs) ∧
        t = { s with dmem := t.dmem, da := s.reg rp, pc := s.pc + 1, tick := s.tick + 2 })

/-- `NEXT rd, rp`: the pointer is incremented, then the cell it now points to is read; the increment writes the flag. With
`rd = rp` the register ends with the cell's value (42_data_movement, `NEXT`; decisions D10, D17, conflict C1). -/
def Obligations.NextIncrementsThenLoads : Prop :=
  ∀ (s : State) (rd rp v : Int), Encoded .NEXT [rd, rp] (.next rd rp) ∧
    (InRange rd s.nreg → InRange rp s.nreg → s.payload? (s.reg rp + 1) = some v →
      ∃ t, exec (.next rd rp) s = .next t ∧ t.reg rd = v ∧ (rd ≠ rp → t.reg rp = s.reg rp + 1) ∧
        (∀ q, InRange q s.nreg → q ≠ rd → q ≠ rp → t.reg q = s.reg q) ∧ t.nreg = s.nreg ∧
        t = { s with
          x := t.x
          z := if s.reg rp + 1 = 0 then true else if s.reg rp + 1 = 1 then false else s.z
          da := s.reg rp + 1
          pc := s.pc + 1
          tick := s.tick + 3 })

/-- An access outside `[0, DLEN)` by a load or a store: `BadDataAddress` after one tick, with the address latched and
nothing else changed (decisions D8, D27). The port forms make no access and are not among these. -/
def Obligations.BadDataAddressOfLoadsAndStores : Prop :=
  ∀ (s : State) (q r a : Int), InRange q s.nreg → InRange r s.nreg →
    (¬ InRange a s.dlen → a ≠ 0 →
      exec (.loadV q a) s = .next { s with da := a, tick := s.tick + 1, status := .fault (.badDataAddress a) }) ∧
    (¬ InRange a s.dlen → a ≠ 1 →
      exec (.storeV a q) s = .next { s with da := a, tick := s.tick + 1, status := .fault (.badDataAddress a) }) ∧
    (¬ InRange (s.reg r) s.dlen → exec (.loadR q r) s =
      .next { s with da := s.reg r, tick := s.tick + 1, status := .fault (.badDataAddress (s.reg r)) }) ∧
    (¬ InRange (s.reg r) s.dlen → exec (.storeR r q) s =
      .next { s with da := s.reg r, tick := s.tick + 1, status := .fault (.badDataAddress (s.reg r)) })

/-- `NEXT` to a bad address: two ticks, the pointer incremented, the flag written, the destination as it was (decisions D8,
D27). -/
def Obligations.BadDataAddressOfNext : Prop :=
  ∀ (s : State) (rd rp : Int), InRange rd s.nreg → InRange rp s.nreg → ¬ InRange (s.reg rp + 1) s.dlen →
    ∃ t, exec (.next rd rp) s = .next t ∧ s.wroteReg t rp (s.reg rp + 1) ∧
      t = { s with
        x := t.x
        z := if s.reg rp + 1 = 0 then true else if s.reg rp + 1 = 1 then false else s.z
        da := s.reg rp + 1
        tick := s.tick + 2
        status := .fault (.badDataAddress (s.reg rp + 1)) }

/-! Arithmetic and compare -/

/-- `CMP ra, rb`: the flag tells whether the registers are equal, and nothing else keeps the result (43_arithmetic, `CMP`;
decisions D10, D11, D17). -/
def Obligations.CmpSetsTheFlagToEquality : Prop :=
  ∀ (s : State) (ra rb : Int), Encoded .CMP [ra, rb] (.cmp ra rb) ∧
    (InRange ra s.nreg → InRange rb s.nreg →
      exec (.cmp ra rb) s = .next { s with z := decide (s.reg ra = s.reg rb), pc := s.pc + 1, tick := s.tick + 1 })

/-- `INC rd`: one more, exactly, with the flag written by the sum (43_arithmetic, `INC`; decisions D1, D10, D17). -/
def Obligations.IncAddsOne : Prop :=
  ∀ (s : State) (rd : Int), Encoded .INC [rd] (.inc rd) ∧
    (InRange rd s.nreg →
      ∃ t, exec (.inc rd) s = .next t ∧ s.wroteReg t rd (s.reg rd + 1) ∧
        t = { s with
          x := t.x
          z := if s.reg rd + 1 = 0 then true else if s.reg rd + 1 = 1 then false else s.z
          pc := s.pc + 1
          tick := s.tick + 1 })

/-- `ADD_MMR md, ms, rs`: the source cell through the buffer latch, the sum into the destination cell, `md = ms` and the
cells 0 and 1 too (43_arithmetic, `ADD_MMR`; decisions D10, D14, D15, D17, D26). -/
def Obligations.AddMmrAddsAcrossMemory : Prop :=
  ∀ (s : State) (md ms rs m : Int), Encoded .ADD_MMR [md, ms, rs] (.addMmr md ms rs) ∧
    (InRange rs s.nreg → s.payload? ms = some m → InRange md s.dlen →
      ∃ t, exec (.addMmr md ms rs) s = .next t ∧ s.wroteCell t md (m + s.reg rs) ∧
        t = { s with
          dmem := t.dmem
          z := if m + s.reg rs = 0 then true else if m + s.reg rs = 1 then false else s.z
          da := md
          br := m
          pc := s.pc + 1
          tick := s.tick + 4 })

/-- `ADD_MMR` with a bad cell: the source is found first, after one tick; a bad destination after three, with the buffer
latch and the flag written and no cell changed (43_arithmetic, `ADD_MMR`; decisions D8, D14, D27). -/
def Obligations.BadDataAddressOfAddMmr : Prop :=
  ∀ (s : State) (md ms rs : Int), InRange rs s.nreg →
    (¬ InRange ms s.dlen → exec (.addMmr md ms rs) s =
      .next { s with da := ms, tick := s.tick + 1, status := .fault (.badDataAddress ms) }) ∧
    (∀ m, s.payload? ms = some m → ¬ InRange md s.dlen → exec (.addMmr md ms rs) s =
      .next { s with
        z := if m + s.reg rs = 0 then true else if m + s.reg rs = 1 then false else s.z
        da := md
        br := m
        tick := s.tick + 3
        status := .fault (.badDataAddress md) })

/-- `MOD_RRV rd, rs, imm`: the floored remainder `m`, determined by `x[rs] = imm * q + m` with `m` between 0 and `imm`; by
zero it is `DivideByZero` after one tick (43_arithmetic, `MOD_RRV`; decisions D2, D3, D10, D13, D17). -/
def Obligations.ModRrvLeavesTheFlooredRemainder : Prop :=
  ∀ (s : State) (rd rs imm : Int), Encoded .MOD_RRV [rd, rs, imm] (.modRrv rd rs imm) ∧
    (InRange rd s.nreg → InRange rs s.nreg →
      (∀ m q, s.reg rs = imm * q + m → (0 ≤ m ∧ m < imm ∨ imm < m ∧ m ≤ 0) →
        ∃ t, exec (.modRrv rd rs imm) s = .next t ∧ s.wroteReg t rd m ∧
          t = { s with
            x := t.x
            z := if m = 0 then true else if m = 1 then false else s.z
            br := s.reg rs
            pc := s.pc + 1
            tick := s.tick + 2 }) ∧
      (imm ≠ 0 → ∃ m q, s.reg rs = imm * q + m ∧ (0 ≤ m ∧ m < imm ∨ imm < m ∧ m ≤ 0)) ∧
      (imm = 0 → exec (.modRrv rd rs imm) s =
        .next { s with br := s.reg rs, tick := s.tick + 1, status := .fault (.divideByZero (s.reg rs)) }))

/-- `LINEAR rd, ri, imm`, `rd = ri` too (43_arithmetic, `LINEAR`; decisions D1, D10, D12, D17). -/
def Obligations.LinearScalesTheIndex : Prop :=
  ∀ (s : State) (rd ri imm : Int), Encoded .LINEAR [rd, ri, imm] (.linear rd ri imm) ∧
    (InRange rd s.nreg → InRange ri s.nreg →
      ∃ t, exec (.linear rd ri imm) s = .next t ∧ s.wroteReg t rd (imm * s.reg ri) ∧
        t = { s with
          x := t.x
          z := if imm * s.reg ri = 0 then true else if imm * s.reg ri = 1 then false else s.z
          br := imm
          pc := s.pc + 1
          tick := s.tick + 2 })

/-- `LINEAR_CONT rd, ri, imm`, `rd = ri` too: the flag is the sum's if that is 0 or 1, else the product's if that is
(43_arithmetic, `LINEAR_CONT`; decisions D1, D10, D12, D17). -/
def Obligations.LinearContAccumulatesTheIndex : Prop :=
  ∀ (s : State) (rd ri imm : Int), Encoded .LINEAR_CONT [rd, ri, imm] (.linearCont rd ri imm) ∧
    (InRange rd s.nreg → InRange ri s.nreg →
      ∃ t, exec (.linearCont rd ri imm) s = .next t ∧ s.wroteReg t rd (s.reg rd + imm * s.reg ri) ∧
        t = { s with
          x := t.x
          z := if s.reg rd + imm * s.reg ri = 0 then true else if s.reg rd + imm * s.reg ri = 1 then false
            else if imm * s.reg ri = 0 then true else if imm * s.reg ri = 1 then false else s.z
          br := imm * s.reg ri
          pc := s.pc + 1
          tick := s.tick + 3 })

/-- A computed address and a direct one reach the same cell: `LINEAR` or `LINEAR_CONT` and then `STORE_R` leave the same
registers, memory and output as `MOV` of the computed number and then `STORE_R` (43_arithmetic, the last rule; decision
D12). -/
def Obligations.ComputedAddressStoresLikeADirectOne : Prop :=
  ∀ (s : State) (rd ri rs imm : Int), InRange rd s.nreg → InRange ri s.nreg → InRange rs s.nreg →
    ∃ a b c a' b' c', exec (.linear rd ri imm) s = .next a ∧ exec (.linearCont rd ri imm) s = .next b ∧
      exec (.mov rd (imm * s.reg ri)) s = .next a' ∧ exec (.mov rd (s.reg rd + imm * s.reg ri)) s = .next b' ∧
      exec (.storeR rd rs) a = .next c ∧ exec (.storeR rd rs) a' = .next c' ∧
      c.dmem = c'.dmem ∧ c.x = c'.x ∧ c.outq = c'.outq ∧ c.status = c'.status ∧
      ∃ d d', exec (.storeR rd rs) b = .next d ∧ exec (.storeR rd rs) b' = .next d' ∧
        d.dmem = d'.dmem ∧ d.x = d'.x ∧ d.outq = d'.outq ∧ d.status = d'.status

/-- Each data tag executed, with any arguments: `InvalidOpcode` with that tag, no tick charged and nothing else changed
(30_encoding section 5; its 'no state changed' the spec marks as derived). That the fault is `exec`'s is the model's split of
the checks (log 9). -/
def Obligations.DataTagRaisesInvalidOpcode : Prop :=
  ∀ (s : State) (args : List Int),
    exec (.number args) s = .next { s with status := .fault (.invalidOpcode .NUMBER) } ∧
    exec (.string args) s = .next { s with status := .fault (.invalidOpcode .STRING) } ∧
    exec (.buffer args) s = .next { s with status := .fault (.invalidOpcode .BUFFER) }

/-! The ALU -/

/-- The 0/1 rule of every ALU call that returns (40_alu_datapath R101): nothing but the flag is written, and only by a result
of exactly 0 or exactly 1. -/
def Obligations.OnlyZeroAndOneTouchTheFlag : Prop :=
  ∀ (op : AluOp) (l r v : Int) (s t : State), s.alu op l r = .ok (v, t) →
    (v = 0 → t = { s with z := true }) ∧ (v = 1 → t = { s with z := false }) ∧ (v ≠ 0 → v ≠ 1 → t = s)

/-- `CMP` tests equality only and always writes the flag, and neither instruction that calls it keeps its result in a
register (40_alu_datapath R104). -/
def Obligations.CompareTestsEqualityOnly : Prop :=
  (∀ (l r : Int) (s : State),
    (l = r → s.alu .CMP l r = .ok (0, { s with z := true })) ∧ (l ≠ r → s.alu .CMP l r = .ok (1, { s with z := false }))) ∧
  ∀ (a b : Int) (s t : State), exec (.cmp a b) s = .next t ∨ exec (.jzR a b) s = .next t → t.x = s.x

/-- The floored remainder has the sign of the divisor and a smaller magnitude, and differs from the dividend by a multiple
of the divisor; by zero the ALU raises with the flag unwritten (40_alu_datapath section 1, decisions D2, D3; log 12). -/
def Obligations.RemainderTakesTheDivisorsSign : Prop :=
  ∀ (l r : Int) (s : State),
    (r = 0 → s.alu .MOD l r = .error { s with status := .fault (.divideByZero l) }) ∧
    (r ≠ 0 → ∃ v t, s.alu .MOD l r = .ok (v, t) ∧ (∃ q, l = r * q + v) ∧ (0 < r → 0 ≤ v ∧ v < r) ∧ (r < 0 → r < v ∧ v ≤ 0))

/-! Frames: what an instruction leaves unchanged, whatever its operands -/

/-- Control flow changes no register, cell, latch or queue; only `JZ_R` writes the flag (41_control_flow). -/
def Obligations.ControlFlowFrame : Prop :=
  ∀ (i : Instr) (s t : State), i.isControlFlow = true → exec i s = .next t →
    t.x = s.x ∧ (∀ a, t.cell? a = s.cell? a) ∧ t.pmem = s.pmem ∧ t.da = s.da ∧ t.br = s.br ∧ t.inq = s.inq ∧ t.outq = s.outq ∧
    ((∀ tgt r, i ≠ .jzR tgt r) → t.z = s.z)

/-- `MOV`, `INC`, `MOD_RRV`, `LINEAR`, `LINEAR_CONT` change one register at most, no cell, no queue and not `da`; `MOV` and
`INC` not `br`, and `MOV` not the flag (42_data_movement, 43_arithmetic). -/
def Obligations.RegisterInstructionFrame : Prop :=
  ∀ (i : Instr) (s t : State) (rd p imm : Int),
    (i = .mov rd imm ∨ i = .inc rd ∨ i = .modRrv rd p imm ∨ i = .linear rd p imm ∨ i = .linearCont rd p imm) →
    exec i s = .next t →
    (∀ q, InRange q s.nreg → q ≠ rd → t.reg q = s.reg q) ∧ (∀ a, t.cell? a = s.cell? a) ∧ t.pmem = s.pmem ∧ t.da = s.da ∧
    t.inq = s.inq ∧ t.outq = s.outq ∧ (i = .mov rd imm ∨ i = .inc rd → t.br = s.br) ∧ (i = .mov rd imm → t.z = s.z)

/-- `LOAD_V` and `LOAD_R` change one register at most, no cell, no output, neither the flag nor `br`; `LOAD_R`, and `LOAD_V`
with an address other than 0, leave the input (42_data_movement). -/
def Obligations.LoadFrame : Prop :=
  ∀ (i : Instr) (s t : State) (rd a : Int), (i = .loadV rd a ∨ i = .loadR rd a) → exec i s = .next t →
    (∀ q, InRange q s.nreg → q ≠ rd → t.reg q = s.reg q) ∧ (∀ b, t.cell? b = s.cell? b) ∧ t.pmem = s.pmem ∧ t.z = s.z ∧
    t.br = s.br ∧ t.outq = s.outq ∧ (i = .loadR rd a ∨ a ≠ 0 → t.inq = s.inq)

/-- `NEXT` changes two registers at most, its pointer and its destination, no cell, no queue and not `br`
(42_data_movement). -/
def Obligations.NextFrame : Prop :=
  ∀ (s t : State) (rd rp : Int), exec (.next rd rp) s = .next t →
    (∀ q, InRange q s.nreg → q ≠ rd → q ≠ rp → t.reg q = s.reg q) ∧ (∀ a, t.cell? a = s.cell? a) ∧ t.pmem = s.pmem ∧
    t.br = s.br ∧ t.inq = s.inq ∧ t.outq = s.outq

/-- `STORE_V`, `STORE_R` and `ADD_MMR` change no register and no input, and no cell but the one at the address stored to: the
literal `a`, the pointer register's value, the literal `md`. `STORE_V 1` stores to none. Only `STORE_V 1` changes the output,
and only `ADD_MMR` the flag and `br` (42_data_movement, 43_arithmetic). -/
def Obligations.StoreFrame : Prop :=
  ∀ (i : Instr) (s t : State) (p r ms : Int), (i = .storeV p r ∨ i = .storeR p r ∨ i = .addMmr p ms r) → exec i s = .next t →
    t.x = s.x ∧ t.pmem = s.pmem ∧ t.inq = s.inq ∧
    (∀ a, a ≠ (if i = .storeR p r then s.reg p else p) → t.cell? a = s.cell? a) ∧
    (i = .storeV 1 r → ∀ a, t.cell? a = s.cell? a) ∧
    (i ≠ .storeV 1 r → t.outq = s.outq) ∧ (i ≠ .addMmr p ms r → t.z = s.z ∧ t.br = s.br)

/-- `CMP` changes the flag, `pc`, `tick` and `status` alone, and a data tag the status alone (43_arithmetic, 30_encoding
section 5). -/
def Obligations.CompareAndDataTagFrame : Prop :=
  ∀ (i : Instr) (s t : State), exec i s = .next t →
    (∀ ra rb, i = .cmp ra rb → t = { s with z := t.z, pc := t.pc, tick := t.tick, status := t.status }) ∧
    (i.dataTag ≠ none → t = { s with status := t.status })

/-! The whole machine -/

/-- A completed instruction charges exactly its tick cost, whatever its operands, the flag and the branch, `HLT` none
(70_reset_and_hazards section 4, 40_alu_datapath section 3, whose table the spec marks as derived). Every non-control-flow
instruction that completes goes to the next instruction (40_alu_datapath section 3, the final advance; 10_state section
3). -/
def Obligations.CompletedInstructionChargesItsTicks : Prop :=
  ∀ (i : Instr) (s t : State), s.status = .running → exec i s = .next t →
    ((t.status = .running ∨ i = .hlt) → t.tick = s.tick + i.ticks) ∧
    (t.status = .running → i.isControlFlow = false → t.pc = s.pc + 1)

/-- A step that ends the run leaves `pc`, both memories and both queues, and charges at most three ticks (40_alu_datapath
section 3, decision D27). Registers, the flag and the latches keep what the signals before the end wrote into them, of
which this says nothing. -/
def Obligations.EndingStepKeepsPcMemoriesAndQueues : Prop :=
  ∀ s t : State, step s = .next t → t.status ≠ .running →
    t.pc = s.pc ∧ t.dmem = s.dmem ∧ t.pmem = s.pmem ∧ t.inq = s.inq ∧ t.outq = s.outq ∧ s.tick ≤ t.tick ∧ t.tick ≤ s.tick + 3

/-- The tick counter never decreases, and a step adds at most four (70_reset_and_hazards section 2, conflict C4). -/
def Obligations.TickNeverDecreases : Prop :=
  ∀ s t : State, step s = .next t → s.tick ≤ t.tick ∧ t.tick ≤ s.tick + 4 ∧ (t.status = .running → s.tick < t.tick)

/-- An invariant of every step, from any state: program memory is never written and its records' arguments never changed
(20_memory section 6, 30_encoding section 1); the number of registers and the number of cells stay (20_memory section 1, as
the lengths the model holds them in, log 10), and so do every cell's tag and index (20_memory section 1, decision D26;
30_encoding section 1, decision D24). -/
def Obligations.StepKeepsTheShape : Prop :=
  ∀ (shape : Shape) (s t : State), s.shape = shape → step s = .next t → t.shape = shape

/-- At reset the shape is that of the model's own launch, nothing loaded and 8 registers (logs 2 and 6), the memory is
canonical, and the block runs from index 0 with no tick charged. -/
def Obligations.ResetStateIsLegal : Prop :=
  State.reset.shape = ⟨8, [], []⟩ ∧ Memory.wf State.reset.dmem ∧ State.reset.status = .running ∧ State.reset.pc = 0 ∧
  State.reset.tick = 0 ∧ State.reset.outq = []

/-- Only `STORE_V 1, rs` changes the output, by appending one integer, and only `LOAD_V rd, 0` the input, by removing its
front (20_memory section 5). -/
def Obligations.QueuesChangeOnlyAtTheirPorts : Prop :=
  ∀ (i : Instr) (s t : State), exec i s = .next t →
    (∀ rs, i = .storeV 1 rs → InRange rs s.nreg → t.outq = s.outq ++ [s.reg rs]) ∧
    ((∀ rs, i = .storeV 1 rs → ¬ InRange rs s.nreg) → t.outq = s.outq) ∧
    (∀ rd, i = .loadV rd 0 → InRange rd s.nreg → t.inq = s.inq.tail) ∧
    ((∀ rd, i = .loadV rd 0 → ¬ InRange rd s.nreg) → t.inq = s.inq)

/-- No instruction writes a register but its destinations, and `NEXT` its pointer (10_state section 2). -/
def Obligations.OnlyDestinationsAreWritten : Prop :=
  ∀ (i : Instr) (s t : State) (q : Int), exec i s = .next t → InRange q s.nreg → q ∉ i.destinations → t.reg q = s.reg q

/-- `HLT`, `JMP`, `JZ`, `MOV`, the loads, the stores to one cell or the port, and the data tags never write the flag
(10_state section 5). -/
def Obligations.OnlyAluInstructionsWriteTheFlag : Prop :=
  ∀ (i : Instr) (s t : State), exec i s = .next t → t.z ≠ s.z →
    (∃ a b, i = .jzR a b ∨ i = .next a b ∨ i = .cmp a b ∨ i = .inc a) ∨
    ∃ a b c, i = .addMmr a b c ∨ i = .modRrv a b c ∨ i = .linear a b c ∨ i = .linearCont a b c

/-- The two normal ends have one cause each: `HLT`, and `LOAD_V rd, 0` on an empty queue (60_exceptions section 2, conflict
C6). -/
def Obligations.NormalEndsHaveOneCauseEach : Prop :=
  ∀ s t : State, step s = .next t →
    (t.status = .halted → ∃ r, s.record? = some r ∧ r.opcode = .HLT ∧ r.args = []) ∧
    (t.status = .endOfInput → s.inq = [] ∧ ∃ r rd, s.record? = some r ∧ r.opcode = .LOAD_V ∧ r.args = [rd, 0])

/-- The latches are unobservable: two runs of any length from states that differ in `da` and `br` alone differ in nothing
else (10_state section 11; the spec marks the ground as derived). -/
def Obligations.LatchesAreUnobservable : Prop :=
  ∀ (n : Nat) (s : State) (da br : Int),
    mapNext State.noLatches (core.run n { s with da := da, br := br }) = mapNext State.noLatches (core.run n s)

/-- The indexes and tags of data cells are never consulted: relabelling every cell and then stepping is stepping and then
relabelling (30_encoding and 20_memory, decisions D24, D26). -/
def Obligations.CellLabelsAreNeverConsulted : Prop :=
  ∀ (f : Nat → Int × DataTag) (s : State), step (s.relabel f) = mapNext (State.relabel f) (step s)

/-! Launch and drive -/

/-- What a launch loads (70_reset_and_hazards R241): the first `data_length` entries are the data cells and the remaining
entries the program, each in order, so that its place is its address or its index. -/
def Obligations.LaunchLoadsTheImageInOrder : Prop :=
  ∀ (l : Launch) (s : State), l.start = .ok s →
    (s.dlen : Int) = l.image.dataLength ∧ s.dlen + s.plen = l.image.entries.length ∧
    (∀ (k : Nat) (c : DataCell), s.dmem[k]? = some c → ∃ (e : ImageEntry) (op : Opcode),
      l.image.entries[k]? = some e ∧ e.index = c.index ∧ op.mnemonic = some e.opcode ∧ op.dataTag = some c.tag ∧ e.args = [c.payload]) ∧
    (∀ (k : Nat) (r : MachineCode), s.pmem[k]? = some r → ∃ e, l.image.entries[s.dlen + k]? = some e ∧ e.index = r.index ∧
      r.opcode.mnemonic = some e.opcode ∧ e.args = r.args)

/-- The rest of the state a launch gives: `pc`, `tick`, the output and the status as the spec fixes them, and the registers,
the flag, the latches and the input as the launch arguments say (10_state section 12, decisions D5, D6, D7, D20, D21). -/
def Obligations.LaunchFixesTheRestOfTheState : Prop :=
  ∀ (l : Launch) (s : State), l.start = .ok s →
    s.pc = 0 ∧ s.tick = 0 ∧ s.outq = [] ∧ s.status = .running ∧ s.inq = l.input ∧ s.z = l.zInit ∧ s.da = l.daInit ∧
    s.br = l.brInit ∧ (s.nreg : Int) = l.nreg ∧ ∀ k : Nat, (k : Int) < l.nreg → s.reg k = l.regInit k

/-- A register count of zero or less never starts (60_exceptions R215). -/
def Obligations.NoRegistersNeverStarts : Prop :=
  ∀ l : Launch, l.nreg ≤ 0 → l.start = .error (.contractViolation l.nreg)

/-- A launch starts exactly when `NREG` is positive, `data_length` fits, every data entry is a data tag with one argument and
every code entry's string is one of the 19 tags, a data tag among them (30_encoding section 2, decision D32). -/
def Obligations.LaunchStartsExactlyOnAWellFormedImage : Prop :=
  ∀ l : Launch, (∃ s, l.start = .ok s) ↔
    0 < l.nreg ∧ 0 ≤ l.image.dataLength ∧ l.image.dataLength ≤ (l.image.entries.length : Int) ∧
    (∀ e ∈ l.image.entries.take l.image.dataLength.toNat, ∃ op v, Opcode.mnemonic op = some e.opcode ∧ op.dataTag ≠ none ∧
      e.args = [v]) ∧
    (∀ e ∈ l.image.entries.drop l.image.dataLength.toNat, ∃ op, Opcode.mnemonic op = some e.opcode)

/-- The driving loop stops by its own condition, an ended run or the tick limit, never for want of turns
(60_exceptions section 6). The `maxTicks + 1` turns are the model's choice (log 16). -/
def Obligations.DriveStopsByItsOwnCondition : Prop :=
  ∀ (m : Nat) (s : State), (drive m s).state.status ≠ .running ∨ m ≤ (drive m s).state.tick

/-- A driven run ends with at most `maxTicks + 3` ticks, if it starts with no more (60_exceptions section 6, which marks the
bound as derived; the loop as the model holds it, log 16). -/
def Obligations.DriveOverrunsTheLimitByAtMostThree : Prop :=
  ∀ (m : Nat) (s : State), s.tick ≤ m + 3 → (drive m s).state.tick ≤ m + 3
end

