-- ==== Sys2Proof/Laws/State.lean ====
section
/-! SUPPORT. Every field after every update of the state, true by definition. -/

namespace Sys2Proof.Machine

variable (s : State)

/-! `raise` writes the status alone (60_exceptions R210). -/

@[simp] theorem State.raise_x (c : Condition) : (s.raise c).x = s.x := rfl
@[simp] theorem State.raise_pc (c : Condition) : (s.raise c).pc = s.pc := rfl
@[simp] theorem State.raise_tick (c : Condition) : (s.raise c).tick = s.tick := rfl
@[simp] theorem State.raise_z (c : Condition) : (s.raise c).z = s.z := rfl
@[simp] theorem State.raise_da (c : Condition) : (s.raise c).da = s.da := rfl
@[simp] theorem State.raise_br (c : Condition) : (s.raise c).br = s.br := rfl
@[simp] theorem State.raise_dmem (c : Condition) : (s.raise c).dmem = s.dmem := rfl
@[simp] theorem State.raise_pmem (c : Condition) : (s.raise c).pmem = s.pmem := rfl
@[simp] theorem State.raise_inq (c : Condition) : (s.raise c).inq = s.inq := rfl
@[simp] theorem State.raise_outq (c : Condition) : (s.raise c).outq = s.outq := rfl
@[simp] theorem State.raise_status (c : Condition) : (s.raise c).status = c.status := rfl

/-! `charge` writes the tick counter alone (40_alu_datapath R116). -/

@[simp] theorem State.charge_x : (s.charge).x = s.x := rfl
@[simp] theorem State.charge_pc : (s.charge).pc = s.pc := rfl
@[simp] theorem State.charge_tick : (s.charge).tick = s.tick + 1 := rfl
@[simp] theorem State.charge_z : (s.charge).z = s.z := rfl
@[simp] theorem State.charge_da : (s.charge).da = s.da := rfl
@[simp] theorem State.charge_br : (s.charge).br = s.br := rfl
@[simp] theorem State.charge_dmem : (s.charge).dmem = s.dmem := rfl
@[simp] theorem State.charge_pmem : (s.charge).pmem = s.pmem := rfl
@[simp] theorem State.charge_inq : (s.charge).inq = s.inq := rfl
@[simp] theorem State.charge_outq : (s.charge).outq = s.outq := rfl
@[simp] theorem State.charge_status : (s.charge).status = s.status := rfl

/-! `advance_pc` writes the program counter alone (40_alu_datapath R117). -/

@[simp] theorem State.advancePc_x (b : Bool) (v : Int) : (s.advancePc b v).x = s.x := rfl
@[simp] theorem State.advancePc_pc (b : Bool) (v : Int) : (s.advancePc b v).pc = if b then s.pc + 1 else v := rfl
@[simp] theorem State.advancePc_tick (b : Bool) (v : Int) : (s.advancePc b v).tick = s.tick := rfl
@[simp] theorem State.advancePc_z (b : Bool) (v : Int) : (s.advancePc b v).z = s.z := rfl
@[simp] theorem State.advancePc_da (b : Bool) (v : Int) : (s.advancePc b v).da = s.da := rfl
@[simp] theorem State.advancePc_br (b : Bool) (v : Int) : (s.advancePc b v).br = s.br := rfl
@[simp] theorem State.advancePc_dmem (b : Bool) (v : Int) : (s.advancePc b v).dmem = s.dmem := rfl
@[simp] theorem State.advancePc_pmem (b : Bool) (v : Int) : (s.advancePc b v).pmem = s.pmem := rfl
@[simp] theorem State.advancePc_inq (b : Bool) (v : Int) : (s.advancePc b v).inq = s.inq := rfl
@[simp] theorem State.advancePc_outq (b : Bool) (v : Int) : (s.advancePc b v).outq = s.outq := rfl
@[simp] theorem State.advancePc_status (b : Bool) (v : Int) : (s.advancePc b v).status = s.status := rfl

/-! `advance` writes the program counter and the tick counter (40_alu_datapath R118). -/

@[simp] theorem State.advance_x : (s.advance).x = s.x := rfl
@[simp] theorem State.advance_pc : (s.advance).pc = s.pc + 1 := rfl
@[simp] theorem State.advance_tick : (s.advance).tick = s.tick + 1 := rfl
@[simp] theorem State.advance_z : (s.advance).z = s.z := rfl
@[simp] theorem State.advance_da : (s.advance).da = s.da := rfl
@[simp] theorem State.advance_br : (s.advance).br = s.br := rfl
@[simp] theorem State.advance_dmem : (s.advance).dmem = s.dmem := rfl
@[simp] theorem State.advance_pmem : (s.advance).pmem = s.pmem := rfl
@[simp] theorem State.advance_inq : (s.advance).inq = s.inq := rfl
@[simp] theorem State.advance_outq : (s.advance).outq = s.outq := rfl
@[simp] theorem State.advance_status : (s.advance).status = s.status := rfl

/-! `latch_register` writes the register file alone (40_alu_datapath R109). -/

@[simp] theorem State.latchRegister_x (r v : Int) : (s.latchRegister r v).x = s.x.set r.toNat v := rfl
@[simp] theorem State.latchRegister_pc (r v : Int) : (s.latchRegister r v).pc = s.pc := rfl
@[simp] theorem State.latchRegister_tick (r v : Int) : (s.latchRegister r v).tick = s.tick := rfl
@[simp] theorem State.latchRegister_z (r v : Int) : (s.latchRegister r v).z = s.z := rfl
@[simp] theorem State.latchRegister_da (r v : Int) : (s.latchRegister r v).da = s.da := rfl
@[simp] theorem State.latchRegister_br (r v : Int) : (s.latchRegister r v).br = s.br := rfl
@[simp] theorem State.latchRegister_dmem (r v : Int) : (s.latchRegister r v).dmem = s.dmem := rfl
@[simp] theorem State.latchRegister_pmem (r v : Int) : (s.latchRegister r v).pmem = s.pmem := rfl
@[simp] theorem State.latchRegister_inq (r v : Int) : (s.latchRegister r v).inq = s.inq := rfl
@[simp] theorem State.latchRegister_outq (r v : Int) : (s.latchRegister r v).outq = s.outq := rfl
@[simp] theorem State.latchRegister_status (r v : Int) : (s.latchRegister r v).status = s.status := rfl

/-! `latch_data_address` writes `da` alone (40_alu_datapath R107). -/

@[simp] theorem State.latchDataAddress_x (a : Int) : (s.latchDataAddress a).x = s.x := rfl
@[simp] theorem State.latchDataAddress_pc (a : Int) : (s.latchDataAddress a).pc = s.pc := rfl
@[simp] theorem State.latchDataAddress_tick (a : Int) : (s.latchDataAddress a).tick = s.tick := rfl
@[simp] theorem State.latchDataAddress_z (a : Int) : (s.latchDataAddress a).z = s.z := rfl
@[simp] theorem State.latchDataAddress_da (a : Int) : (s.latchDataAddress a).da = a := rfl
@[simp] theorem State.latchDataAddress_br (a : Int) : (s.latchDataAddress a).br = s.br := rfl
@[simp] theorem State.latchDataAddress_dmem (a : Int) : (s.latchDataAddress a).dmem = s.dmem := rfl
@[simp] theorem State.latchDataAddress_pmem (a : Int) : (s.latchDataAddress a).pmem = s.pmem := rfl
@[simp] theorem State.latchDataAddress_inq (a : Int) : (s.latchDataAddress a).inq = s.inq := rfl
@[simp] theorem State.latchDataAddress_outq (a : Int) : (s.latchDataAddress a).outq = s.outq := rfl
@[simp] theorem State.latchDataAddress_status (a : Int) : (s.latchDataAddress a).status = s.status := rfl

/-! `latch_buffer_register` writes `br` alone (40_alu_datapath R108). -/

@[simp] theorem State.latchBuffer_x (v : Int) : (s.latchBuffer v).x = s.x := rfl
@[simp] theorem State.latchBuffer_pc (v : Int) : (s.latchBuffer v).pc = s.pc := rfl
@[simp] theorem State.latchBuffer_tick (v : Int) : (s.latchBuffer v).tick = s.tick := rfl
@[simp] theorem State.latchBuffer_z (v : Int) : (s.latchBuffer v).z = s.z := rfl
@[simp] theorem State.latchBuffer_da (v : Int) : (s.latchBuffer v).da = s.da := rfl
@[simp] theorem State.latchBuffer_br (v : Int) : (s.latchBuffer v).br = v := rfl
@[simp] theorem State.latchBuffer_dmem (v : Int) : (s.latchBuffer v).dmem = s.dmem := rfl
@[simp] theorem State.latchBuffer_pmem (v : Int) : (s.latchBuffer v).pmem = s.pmem := rfl
@[simp] theorem State.latchBuffer_inq (v : Int) : (s.latchBuffer v).inq = s.inq := rfl
@[simp] theorem State.latchBuffer_outq (v : Int) : (s.latchBuffer v).outq = s.outq := rfl
@[simp] theorem State.latchBuffer_status (v : Int) : (s.latchBuffer v).status = s.status := rfl

/-! The flag is written alone (40_alu_datapath R101). -/

@[simp] theorem State.setFlag_x (b : Bool) : (s.setFlag b).x = s.x := rfl
@[simp] theorem State.setFlag_pc (b : Bool) : (s.setFlag b).pc = s.pc := rfl
@[simp] theorem State.setFlag_tick (b : Bool) : (s.setFlag b).tick = s.tick := rfl
@[simp] theorem State.setFlag_z (b : Bool) : (s.setFlag b).z = b := rfl
@[simp] theorem State.setFlag_da (b : Bool) : (s.setFlag b).da = s.da := rfl
@[simp] theorem State.setFlag_br (b : Bool) : (s.setFlag b).br = s.br := rfl
@[simp] theorem State.setFlag_dmem (b : Bool) : (s.setFlag b).dmem = s.dmem := rfl
@[simp] theorem State.setFlag_pmem (b : Bool) : (s.setFlag b).pmem = s.pmem := rfl
@[simp] theorem State.setFlag_inq (b : Bool) : (s.setFlag b).inq = s.inq := rfl
@[simp] theorem State.setFlag_outq (b : Bool) : (s.setFlag b).outq = s.outq := rfl
@[simp] theorem State.setFlag_status (b : Bool) : (s.setFlag b).status = s.status := rfl

/-! A data write changes data memory alone (20_memory R56). -/

@[simp] theorem State.setPayload_x (a v : Int) : (s.setPayload a v).x = s.x := rfl
@[simp] theorem State.setPayload_pc (a v : Int) : (s.setPayload a v).pc = s.pc := rfl
@[simp] theorem State.setPayload_tick (a v : Int) : (s.setPayload a v).tick = s.tick := rfl
@[simp] theorem State.setPayload_z (a v : Int) : (s.setPayload a v).z = s.z := rfl
@[simp] theorem State.setPayload_da (a v : Int) : (s.setPayload a v).da = s.da := rfl
@[simp] theorem State.setPayload_br (a v : Int) : (s.setPayload a v).br = s.br := rfl
@[simp] theorem State.setPayload_dmem (a v : Int) : (s.setPayload a v).dmem = Memory.write a.toNat v s.dmem := rfl
@[simp] theorem State.setPayload_pmem (a v : Int) : (s.setPayload a v).pmem = s.pmem := rfl
@[simp] theorem State.setPayload_inq (a v : Int) : (s.setPayload a v).inq = s.inq := rfl
@[simp] theorem State.setPayload_outq (a v : Int) : (s.setPayload a v).outq = s.outq := rfl
@[simp] theorem State.setPayload_status (a v : Int) : (s.setPayload a v).status = s.status := rfl

/-! `ReadInput` removes from the input queue alone (20_memory R62). -/

@[simp] theorem State.popInput_x : (s.popInput).x = s.x := rfl
@[simp] theorem State.popInput_pc : (s.popInput).pc = s.pc := rfl
@[simp] theorem State.popInput_tick : (s.popInput).tick = s.tick := rfl
@[simp] theorem State.popInput_z : (s.popInput).z = s.z := rfl
@[simp] theorem State.popInput_da : (s.popInput).da = s.da := rfl
@[simp] theorem State.popInput_br : (s.popInput).br = s.br := rfl
@[simp] theorem State.popInput_dmem : (s.popInput).dmem = s.dmem := rfl
@[simp] theorem State.popInput_pmem : (s.popInput).pmem = s.pmem := rfl
@[simp] theorem State.popInput_inq : (s.popInput).inq = s.inq.tail := rfl
@[simp] theorem State.popInput_outq : (s.popInput).outq = s.outq := rfl
@[simp] theorem State.popInput_status : (s.popInput).status = s.status := rfl

/-! `WriteOutput` writes the output queue alone (20_memory R63). -/

@[simp] theorem State.writeOutput_x (v : Int) : (s.writeOutput v).x = s.x := rfl
@[simp] theorem State.writeOutput_pc (v : Int) : (s.writeOutput v).pc = s.pc := rfl
@[simp] theorem State.writeOutput_tick (v : Int) : (s.writeOutput v).tick = s.tick := rfl
@[simp] theorem State.writeOutput_z (v : Int) : (s.writeOutput v).z = s.z := rfl
@[simp] theorem State.writeOutput_da (v : Int) : (s.writeOutput v).da = s.da := rfl
@[simp] theorem State.writeOutput_br (v : Int) : (s.writeOutput v).br = s.br := rfl
@[simp] theorem State.writeOutput_dmem (v : Int) : (s.writeOutput v).dmem = s.dmem := rfl
@[simp] theorem State.writeOutput_pmem (v : Int) : (s.writeOutput v).pmem = s.pmem := rfl
@[simp] theorem State.writeOutput_inq (v : Int) : (s.writeOutput v).inq = s.inq := rfl
@[simp] theorem State.writeOutput_outq (v : Int) : (s.writeOutput v).outq = s.outq ++ [v] := rfl
@[simp] theorem State.writeOutput_status (v : Int) : (s.writeOutput v).status = s.status := rfl

/-! A branch writes the program counter and the tick counter (41_control_flow R133). -/

@[simp] theorem State.branch_x (t : Int) : (s.branch t).x = s.x := by
  unfold State.branch; split <;> rfl
@[simp] theorem State.branch_pc (t : Int) : (s.branch t).pc = if s.z then t else s.pc + 1 := by
  unfold State.branch State.zero; split <;> rfl
@[simp] theorem State.branch_tick (t : Int) : (s.branch t).tick = s.tick + 1 := by
  unfold State.branch; split <;> rfl
@[simp] theorem State.branch_z (t : Int) : (s.branch t).z = s.z := by
  unfold State.branch; split <;> rfl
@[simp] theorem State.branch_da (t : Int) : (s.branch t).da = s.da := by
  unfold State.branch; split <;> rfl
@[simp] theorem State.branch_br (t : Int) : (s.branch t).br = s.br := by
  unfold State.branch; split <;> rfl
@[simp] theorem State.branch_dmem (t : Int) : (s.branch t).dmem = s.dmem := by
  unfold State.branch; split <;> rfl
@[simp] theorem State.branch_pmem (t : Int) : (s.branch t).pmem = s.pmem := by
  unfold State.branch; split <;> rfl
@[simp] theorem State.branch_inq (t : Int) : (s.branch t).inq = s.inq := by
  unfold State.branch; split <;> rfl
@[simp] theorem State.branch_outq (t : Int) : (s.branch t).outq = s.outq := by
  unfold State.branch; split <;> rfl
@[simp] theorem State.branch_status (t : Int) : (s.branch t).status = s.status := by
  unfold State.branch; split <;> rfl

/-! The reads that depend on one field, through every update of another. -/

@[simp] theorem State.raise_nreg (c : Condition) : (s.raise c).nreg = s.nreg := rfl
@[simp] theorem State.raise_reg (c : Condition) (q : Int) : (s.raise c).reg q = s.reg q := rfl
@[simp] theorem State.raise_dlen (c : Condition) : (s.raise c).dlen = s.dlen := rfl
@[simp] theorem State.raise_cell? (c : Condition) (q : Int) : (s.raise c).cell? q = s.cell? q := rfl
@[simp] theorem State.raise_payload? (c : Condition) (q : Int) : (s.raise c).payload? q = s.payload? q := rfl
@[simp] theorem State.raise_plen (c : Condition) : (s.raise c).plen = s.plen := rfl
@[simp] theorem State.charge_nreg : (s.charge).nreg = s.nreg := rfl
@[simp] theorem State.charge_reg (q : Int) : (s.charge).reg q = s.reg q := rfl
@[simp] theorem State.charge_dlen : (s.charge).dlen = s.dlen := rfl
@[simp] theorem State.charge_cell? (q : Int) : (s.charge).cell? q = s.cell? q := rfl
@[simp] theorem State.charge_payload? (q : Int) : (s.charge).payload? q = s.payload? q := rfl
@[simp] theorem State.charge_plen : (s.charge).plen = s.plen := rfl
@[simp] theorem State.advancePc_nreg (b : Bool) (v : Int) : (s.advancePc b v).nreg = s.nreg := rfl
@[simp] theorem State.advancePc_reg (b : Bool) (v : Int) (q : Int) : (s.advancePc b v).reg q = s.reg q := rfl
@[simp] theorem State.advancePc_dlen (b : Bool) (v : Int) : (s.advancePc b v).dlen = s.dlen := rfl
@[simp] theorem State.advancePc_cell? (b : Bool) (v : Int) (q : Int) : (s.advancePc b v).cell? q = s.cell? q := rfl
@[simp] theorem State.advancePc_payload? (b : Bool) (v : Int) (q : Int) : (s.advancePc b v).payload? q = s.payload? q := rfl
@[simp] theorem State.advancePc_plen (b : Bool) (v : Int) : (s.advancePc b v).plen = s.plen := rfl
@[simp] theorem State.advance_nreg : (s.advance).nreg = s.nreg := rfl
@[simp] theorem State.advance_reg (q : Int) : (s.advance).reg q = s.reg q := rfl
@[simp] theorem State.advance_dlen : (s.advance).dlen = s.dlen := rfl
@[simp] theorem State.advance_cell? (q : Int) : (s.advance).cell? q = s.cell? q := rfl
@[simp] theorem State.advance_payload? (q : Int) : (s.advance).payload? q = s.payload? q := rfl
@[simp] theorem State.advance_plen : (s.advance).plen = s.plen := rfl
@[simp] theorem State.latchRegister_dlen (r v : Int) : (s.latchRegister r v).dlen = s.dlen := rfl
@[simp] theorem State.latchRegister_cell? (r v : Int) (q : Int) : (s.latchRegister r v).cell? q = s.cell? q := rfl
@[simp] theorem State.latchRegister_payload? (r v : Int) (q : Int) : (s.latchRegister r v).payload? q = s.payload? q := rfl
@[simp] theorem State.latchRegister_plen (r v : Int) : (s.latchRegister r v).plen = s.plen := rfl
@[simp] theorem State.latchDataAddress_nreg (a : Int) : (s.latchDataAddress a).nreg = s.nreg := rfl
@[simp] theorem State.latchDataAddress_reg (a : Int) (q : Int) : (s.latchDataAddress a).reg q = s.reg q := rfl
@[simp] theorem State.latchDataAddress_dlen (a : Int) : (s.latchDataAddress a).dlen = s.dlen := rfl
@[simp] theorem State.latchDataAddress_cell? (a : Int) (q : Int) : (s.latchDataAddress a).cell? q = s.cell? q := rfl
@[simp] theorem State.latchDataAddress_payload? (a : Int) (q : Int) : (s.latchDataAddress a).payload? q = s.payload? q := rfl
@[simp] theorem State.latchDataAddress_plen (a : Int) : (s.latchDataAddress a).plen = s.plen := rfl
@[simp] theorem State.latchBuffer_nreg (v : Int) : (s.latchBuffer v).nreg = s.nreg := rfl
@[simp] theorem State.latchBuffer_reg (v : Int) (q : Int) : (s.latchBuffer v).reg q = s.reg q := rfl
@[simp] theorem State.latchBuffer_dlen (v : Int) : (s.latchBuffer v).dlen = s.dlen := rfl
@[simp] theorem State.latchBuffer_cell? (v : Int) (q : Int) : (s.latchBuffer v).cell? q = s.cell? q := rfl
@[simp] theorem State.latchBuffer_payload? (v : Int) (q : Int) : (s.latchBuffer v).payload? q = s.payload? q := rfl
@[simp] theorem State.latchBuffer_plen (v : Int) : (s.latchBuffer v).plen = s.plen := rfl
@[simp] theorem State.setFlag_nreg (b : Bool) : (s.setFlag b).nreg = s.nreg := rfl
@[simp] theorem State.setFlag_reg (b : Bool) (q : Int) : (s.setFlag b).reg q = s.reg q := rfl
@[simp] theorem State.setFlag_dlen (b : Bool) : (s.setFlag b).dlen = s.dlen := rfl
@[simp] theorem State.setFlag_cell? (b : Bool) (q : Int) : (s.setFlag b).cell? q = s.cell? q := rfl
@[simp] theorem State.setFlag_payload? (b : Bool) (q : Int) : (s.setFlag b).payload? q = s.payload? q := rfl
@[simp] theorem State.setFlag_plen (b : Bool) : (s.setFlag b).plen = s.plen := rfl
@[simp] theorem State.setPayload_nreg (a v : Int) : (s.setPayload a v).nreg = s.nreg := rfl
@[simp] theorem State.setPayload_reg (a v : Int) (q : Int) : (s.setPayload a v).reg q = s.reg q := rfl
@[simp] theorem State.setPayload_plen (a v : Int) : (s.setPayload a v).plen = s.plen := rfl
@[simp] theorem State.popInput_nreg : (s.popInput).nreg = s.nreg := rfl
@[simp] theorem State.popInput_reg (q : Int) : (s.popInput).reg q = s.reg q := rfl
@[simp] theorem State.popInput_dlen : (s.popInput).dlen = s.dlen := rfl
@[simp] theorem State.popInput_cell? (q : Int) : (s.popInput).cell? q = s.cell? q := rfl
@[simp] theorem State.popInput_payload? (q : Int) : (s.popInput).payload? q = s.payload? q := rfl
@[simp] theorem State.popInput_plen : (s.popInput).plen = s.plen := rfl
@[simp] theorem State.writeOutput_nreg (v : Int) : (s.writeOutput v).nreg = s.nreg := rfl
@[simp] theorem State.writeOutput_reg (v : Int) (q : Int) : (s.writeOutput v).reg q = s.reg q := rfl
@[simp] theorem State.writeOutput_dlen (v : Int) : (s.writeOutput v).dlen = s.dlen := rfl
@[simp] theorem State.writeOutput_cell? (v : Int) (q : Int) : (s.writeOutput v).cell? q = s.cell? q := rfl
@[simp] theorem State.writeOutput_payload? (v : Int) (q : Int) : (s.writeOutput v).payload? q = s.payload? q := rfl
@[simp] theorem State.writeOutput_plen (v : Int) : (s.writeOutput v).plen = s.plen := rfl
@[simp] theorem State.branch_nreg (t : Int) : (s.branch t).nreg = s.nreg := by
  unfold State.branch; split <;> rfl
@[simp] theorem State.branch_reg (t : Int) (q : Int) : (s.branch t).reg q = s.reg q := by
  unfold State.branch; split <;> rfl
@[simp] theorem State.branch_dlen (t : Int) : (s.branch t).dlen = s.dlen := by
  unfold State.branch; split <;> rfl
@[simp] theorem State.branch_cell? (t : Int) (q : Int) : (s.branch t).cell? q = s.cell? q := by
  unfold State.branch; split <;> rfl
@[simp] theorem State.branch_payload? (t : Int) (q : Int) : (s.branch t).payload? q = s.payload? q := by
  unfold State.branch; split <;> rfl
@[simp] theorem State.branch_plen (t : Int) : (s.branch t).plen = s.plen := by
  unfold State.branch; split <;> rfl

end Sys2Proof.Machine
end

