-- ==== Sys2Proof/Laws/Memory.lean ====
section
/-! SUPPORT. Reading after writing, for registers and for data memory, and what no write changes. -/

namespace Sys2Proof.Machine

section Registers
variable (s : State)

@[simp] theorem nreg_latchRegister (r v : Int) : (s.latchRegister r v).nreg = s.nreg := by
  simp [State.nreg]

/-- A register in range reads back the value latched into it. -/
theorem reg_latchRegister_same {r : Int} (v : Int) (h : InRange r s.nreg) : (s.latchRegister r v).reg r = v := by
  have hr : r.toNat < s.x.length := by have := h.1; have := h.2; unfold State.nreg at *; omega
  simp [State.reg, State.latchRegister, hr]

/-- Every other register keeps its value. -/
theorem reg_latchRegister_other {r q : Int} (v : Int) (hr : InRange r s.nreg) (hq : InRange q s.nreg) (h : q ≠ r) :
    (s.latchRegister r v).reg q = s.reg q := by
  have hne : r.toNat ≠ q.toNat := by have := hr.1; have := hq.1; omega
  simp [State.reg, State.latchRegister, List.getD_eq_getElem?_getD, hne]

/-- A register reads the same wherever the register files are the same. -/
theorem reg_congr {s t : State} (h : t.x = s.x) (r : Int) : t.reg r = s.reg r := by simp [State.reg, h]

end Registers

section Memory

/-- A write keeps every cell's index and tag, and so the number of cells (20_memory R52, R53). -/
theorem Memory.labels_write (k : Nat) (v : Int) (m : Memory) :
    (Memory.write k v m).map DataCell.label = m.map DataCell.label := by
  unfold Memory.write
  apply List.ext_getElem? fun i => ?_
  simp only [List.getElem?_map, List.getElem?_modify]
  split <;> cases m[i]? <;> rfl

@[simp] theorem Memory.length_write (k : Nat) (v : Int) (m : Memory) : (Memory.write k v m).length = m.length := by
  simp [Memory.write]

/-- The cell written holds the value, with its own index and tag (20_memory R52). -/
theorem Memory.getElem?_write_same (k : Nat) (v : Int) (m : Memory) :
    (Memory.write k v m)[k]? = m[k]?.map fun c => { c with payload := v } := by
  simp [Memory.write]

/-- Every other cell is as before (20_memory R56). -/
theorem Memory.getElem?_write_other {k i : Nat} (v : Int) (m : Memory) (h : i ≠ k) :
    (Memory.write k v m)[i]? = m[i]? := by
  simp [Memory.write, Ne.symm h]

/-- Any memory has the canonical form: a cell's address is its position, so no address is listed twice or left out. -/
theorem Memory.wf_any (m : Memory) : Memory.wf m := by
  simp [Memory.wf, Memory.pairs, Function.comp_def, List.zipIdx_map_snd, List.range_eq_range']

/-- A write keeps the canonical form. -/
theorem Memory.wf_write (k : Nat) (v : Int) (m : Memory) (_ : Memory.wf m) : Memory.wf (Memory.write k v m) :=
  Memory.wf_any _

/-- The memory of `State.reset` has the canonical form. -/
theorem Memory.wf_reset : Memory.wf State.reset.dmem := Memory.wf_any _

@[simp] theorem dlen_setPayload (a v : Int) (s : State) : (s.setPayload a v).dlen = s.dlen := by
  simp [State.dlen]

/-- An address in range has a cell. -/
theorem exists_cell {s : State} {a : Int} (h : InRange a s.dlen) : ∃ c, s.cell? a = some c := by
  have ha : a.toNat < s.dmem.length := by have := h.1; have := h.2; unfold State.dlen at *; omega
  exact ⟨s.dmem[a.toNat], by simp [State.cell?, h, ha]⟩

/-- An address out of range has none. -/
theorem cell?_none {s : State} {a : Int} (h : ¬ InRange a s.dlen) : s.cell? a = none := by
  simp only [State.cell?, if_neg h]

/-- An address in range has a payload. -/
theorem exists_payload {s : State} {a : Int} (h : InRange a s.dlen) : ∃ v, s.payload? a = some v := by
  obtain ⟨c, hc⟩ := exists_cell h
  exact ⟨c.payload, by simp [State.payload?, hc]⟩

/-- An address out of range has no payload. -/
theorem payload?_none {s : State} {a : Int} (h : ¬ InRange a s.dlen) : s.payload? a = none := by
  simp [State.payload?, cell?_none h]

/-- A payload is read only where there is a cell. -/
theorem inRange_of_payload {s : State} {a v : Int} (h : s.payload? a = some v) : InRange a s.dlen := by
  by_contra hn
  simp [payload?_none hn] at h

/-- Cells read the same wherever the data memories are the same. -/
theorem cell?_congr {s t : State} (h : t.dmem = s.dmem) (a : Int) : t.cell? a = s.cell? a := by
  unfold State.cell? State.dlen
  rw [h]

/-- Payloads read the same wherever the data memories are the same. -/
theorem payload?_congr {s t : State} (h : t.dmem = s.dmem) (a : Int) : t.payload? a = s.payload? a := by
  simp [State.payload?, cell?_congr h]

/-- A state whose memory is another's, written at `a`, has written that cell and no other. -/
theorem wroteCell_of_write {s t : State} {a v : Int} (h : InRange a s.dlen)
    (ht : t.dmem = Memory.write a.toNat v s.dmem) : s.wroteCell t a v := by
  have hl : t.dlen = s.dlen := by simp [State.dlen, ht]
  refine ⟨?_, fun b hb => ?_⟩
  · obtain ⟨c, hc⟩ := exists_cell h
    refine ⟨c, hc, ?_⟩
    simp only [State.cell?, if_pos h] at hc
    simp [State.cell?, hl, h, ht, Memory.getElem?_write_same, hc]
  · simp only [State.cell?, hl, ht]
    split
    · next hb' =>
      have : b.toNat ≠ a.toNat := by have := h.1; have := hb'.1; omega
      exact Memory.getElem?_write_other v s.dmem this
    · rfl

/-- A state whose register file is another's, latched at `r`, has written that register and no other. -/
theorem wroteReg_of_set {s t : State} {r v : Int} (h : InRange r s.nreg) (ht : t.x = s.x.set r.toNat v) :
    s.wroteReg t r v := by
  have hx : t.x = (s.latchRegister r v).x := by simp [ht]
  refine ⟨by simp [State.nreg, ht], ?_, fun q hq hne => ?_⟩
  · rw [reg_congr hx, reg_latchRegister_same s v h]
  · rw [reg_congr hx, reg_latchRegister_other s v h hq hne]

end Memory

end Sys2Proof.Machine
end

