-- ==== Sys2Proof/Laws/Ops.lean ====
section
/-! SUPPORT. One lemma per shared operation: everything it can answer. -/

namespace Sys2Proof.Machine

@[simp] theorem flagAfter_zero (z : Bool) : flagAfter 0 z = true := rfl

@[simp] theorem flagAfter_one (z : Bool) : flagAfter 1 z = false := rfl

/-- Any other result leaves the flag (40_alu_datapath R101). -/
theorem flagAfter_other {v : Int} (z : Bool) (h0 : v ≠ 0) (h1 : v ≠ 1) : flagAfter v z = z := by
  simp [flagAfter, h0, h1]

/-- A compare result always decides the flag (40_alu_datapath R104). -/
@[simp] theorem flagAfter_compare (l r : Int) (z : Bool) : flagAfter (if l = r then 0 else 1) z = decide (l = r) := by
  split <;> simp_all

section
variable (s : State) (l r : Int)

@[simp] theorem alu_add : s.alu .ADD l r = .ok (l + r, s.setFlag (flagAfter (l + r) s.z)) := rfl

@[simp] theorem alu_mul : s.alu .MUL l r = .ok (l * r, s.setFlag (flagAfter (l * r) s.z)) := rfl

@[simp] theorem alu_cmp : s.alu .CMP l r = .ok (if l = r then 0 else 1, s.setFlag (decide (l = r))) := by
  simp [State.alu, aluResult]

theorem alu_mod {r : Int} (h : r ≠ 0) :
    s.alu .MOD l r = .ok (Int.fmod l r, s.setFlag (flagAfter (Int.fmod l r) s.z)) := by
  simp [State.alu, aluResult, h]

@[simp] theorem alu_mod_zero : s.alu .MOD l 0 = .error (s.raise (.fault (.divideByZero l))) := rfl

end

/-- `MemRead` where there is a cell. -/
theorem memRead_some {s : State} {a v : Int} (h : s.payload? a = some v) : s.memRead a = .ok v := by
  simp [State.memRead, h]

/-- `MemRead` where there is none (20_memory R55). -/
theorem memRead_none {s : State} {a : Int} (h : ¬ InRange a s.dlen) :
    s.memRead a = .error (s.raise (.fault (.badDataAddress a))) := by
  simp [State.memRead, payload?_none h]

/-- `MemWrite` where there is a cell. -/
theorem memWrite_some {s : State} {a : Int} (v : Int) (h : InRange a s.dlen) :
    s.memWrite a v = .ok (s.setPayload a v) := by
  simp only [State.memWrite, if_pos h]

/-- `MemWrite` where there is none (20_memory R55). -/
theorem memWrite_none {s : State} {a : Int} (v : Int) (h : ¬ InRange a s.dlen) :
    s.memWrite a v = .error (s.raise (.fault (.badDataAddress a))) := by
  simp only [State.memWrite, if_neg h]

/-- `ReadInput` from a queue that holds a code (20_memory R62). -/
theorem readInput_cons {s : State} {c : Nat} {rest : List Nat} (h : s.inq = c :: rest) :
    s.readInput = .ok ((c : Int), s.popInput) := by
  simp [State.readInput, h]

/-- `ReadInput` from an empty queue (20_memory R62). -/
theorem readInput_nil {s : State} (h : s.inq = []) : s.readInput = .error (s.raise .endOfInput) := by
  simp [State.readInput, h]

/-- `Fetch` in terms of the record at `pc` (20_memory R60). -/
theorem fetch_eq (s : State) :
    s.fetch = match s.record? with
      | some r => .ok r
      | none => .error (s.raise (.fault (.badPC s.pc))) := rfl

/-- `Fetch` outside program memory (20_memory R60). -/
theorem fetch_none {s : State} (h : ¬ InRange s.pc s.plen) : s.fetch = .error (s.raise (.fault (.badPC s.pc))) := by
  simp only [State.fetch, if_neg h]

@[simp] theorem loadOperand_input : loadOperand 0 = .inputPort := rfl

theorem loadOperand_address {a : Int} (h : a ≠ 0) : loadOperand a = .address a := if_neg h

@[simp] theorem storeOperand_output : storeOperand 1 = .outputPort := rfl

theorem storeOperand_address {a : Int} (h : a ≠ 1) : storeOperand a = .address a := if_neg h

/-- No bad field when every field is in range (30_encoding R78). -/
theorem badField?_none {n : Nat} {fields : List Int} (h : ∀ v ∈ fields, InRange v n) : badField? n fields = none := by
  simpa [badField?] using h

/-- Every field in range: the signals run to their end. -/
theorem runSignals_ok {fields : List Int} {f : State → Except State State} {s t : State}
    (h : ∀ v ∈ fields, InRange v s.nreg) (hf : f s = .ok t) : runSignals fields f s = .next t := by
  simp only [runSignals, badField?_none h, hf]

/-- Every field in range: a condition raised by a signal ends the run with the effects made before it. -/
theorem runSignals_raised {fields : List Int} {f : State → Except State State} {s t : State}
    (h : ∀ v ∈ fields, InRange v s.nreg) (hf : f s = .error t) : runSignals fields f s = .next t := by
  simp only [runSignals, badField?_none h, hf]

/-- The first bad field ends the run before any signal (30_encoding R78, R85). -/
theorem runSignals_bad {fields : List Int} {f : State → Except State State} {s : State} {v : Int}
    (h : badField? s.nreg fields = some v) : runSignals fields f s = .next (s.raise (.fault (.badRegister v))) := by
  simp only [runSignals, h]

/-- Everything `runSignals` can answer: always a next state, by a bad field, by the signals or by what they raise. -/
theorem runSignals_cases (fields : List Int) (f : State → Except State State) (s : State) :
    (∃ v, badField? s.nreg fields = some v ∧ runSignals fields f s = .next (s.raise (.fault (.badRegister v)))) ∨
    (badField? s.nreg fields = none ∧ ∃ t, (f s = .ok t ∨ f s = .error t) ∧ runSignals fields f s = .next t) := by
  unfold runSignals
  cases badField? s.nreg fields with
  | some v => exact .inl ⟨v, rfl, rfl⟩
  | none =>
    refine .inr ⟨rfl, ?_⟩
    cases f s with
    | ok t => exact ⟨t, .inl rfl, rfl⟩
    | error t => exact ⟨t, .inr rfl, rfl⟩

end Sys2Proof.Machine
end

