-- ==== Sys2Proof/Laws/Exec.lean ====
section
/-! SUPPORT. Each arm of `exec` is its meaning, and `exec` always answers a next state. -/

namespace Sys2Proof.Machine

variable (s : State)

theorem exec_hlt : exec .hlt s = execHlt s := rfl
theorem exec_jmp (t : Int) : exec (.jmp t) s = execJmp t s := rfl
theorem exec_jz (t : Int) : exec (.jz t) s = execJz t s := rfl
theorem exec_jzR (t r : Int) : exec (.jzR t r) s = execJzR t r s := rfl
theorem exec_mov (rd imm : Int) : exec (.mov rd imm) s = execMov rd imm s := rfl
theorem exec_loadV (rd a : Int) : exec (.loadV rd a) s = execLoadV rd a s := rfl
theorem exec_loadR (rd rp : Int) : exec (.loadR rd rp) s = execLoadR rd rp s := rfl
theorem exec_storeV (a rs : Int) : exec (.storeV a rs) s = execStoreV a rs s := rfl
theorem exec_storeR (rp rs : Int) : exec (.storeR rp rs) s = execStoreR rp rs s := rfl
theorem exec_nextInstr (rd rp : Int) : exec (.next rd rp) s = execNext rd rp s := rfl
theorem exec_cmp (ra rb : Int) : exec (.cmp ra rb) s = execCmp ra rb s := rfl
theorem exec_inc (rd : Int) : exec (.inc rd) s = execInc rd s := rfl
theorem exec_addMmr (md ms rs : Int) : exec (.addMmr md ms rs) s = execAddMmr md ms rs s := rfl
theorem exec_modRrv (rd rs imm : Int) : exec (.modRrv rd rs imm) s = execModRrv rd rs imm s := rfl
theorem exec_linear (rd ri imm : Int) : exec (.linear rd ri imm) s = execLinear rd ri imm s := rfl
theorem exec_linearCont (rd ri imm : Int) : exec (.linearCont rd ri imm) s = execLinearCont rd ri imm s := rfl
theorem exec_number (args : List Int) : exec (.number args) s = execNumber s := rfl
theorem exec_string (args : List Int) : exec (.string args) s = execString s := rfl
theorem exec_buffer (args : List Int) : exec (.buffer args) s = execBuffer s := rfl

/-- Signals always give a next state: a terminal condition is one too (log 1). -/
theorem runSignals_next (fields : List Int) (f : State → Except State State) : ∃ t, runSignals fields f s = .next t := by
  rcases runSignals_cases fields f s with ⟨_, _, h⟩ | ⟨_, t, _, h⟩ <;> exact ⟨_, h⟩

/-- Every instruction has a next state in every state. -/
theorem exec_answers_next (i : Instr) : ∃ t, exec i s = .next t := by
  cases i with
  | hlt => exact ⟨_, rfl⟩
  | jmp => exact ⟨_, rfl⟩
  | jz => exact ⟨_, rfl⟩
  | number => exact ⟨_, rfl⟩
  | string => exact ⟨_, rfl⟩
  | buffer => exact ⟨_, rfl⟩
  | jzR => rw [exec_jzR]; exact runSignals_next s _ _
  | mov => rw [exec_mov]; exact runSignals_next s _ _
  | loadV => rw [exec_loadV]; exact runSignals_next s _ _
  | loadR => rw [exec_loadR]; exact runSignals_next s _ _
  | storeV => rw [exec_storeV]; exact runSignals_next s _ _
  | storeR => rw [exec_storeR]; exact runSignals_next s _ _
  | next => rw [exec_nextInstr]; exact runSignals_next s _ _
  | cmp => rw [exec_cmp]; exact runSignals_next s _ _
  | inc => rw [exec_inc]; exact runSignals_next s _ _
  | addMmr => rw [exec_addMmr]; exact runSignals_next s _ _
  | modRrv => rw [exec_modRrv]; exact runSignals_next s _ _
  | linear => rw [exec_linear]; exact runSignals_next s _ _
  | linearCont => rw [exec_linearCont]; exact runSignals_next s _ _

end Sys2Proof.Machine
end

