-- ==== Sys2Proof/Laws/PerInstr.lean ====
section
/-! SUPPORT. The family `Layout`, one lemma per constructor: an instruction's record has its opcode's number of arguments,
and the record is a data tag's exactly where the instruction is (30_encoding R71, R76). -/

namespace Sys2Proof.Laws.Layout

/-- What the record of an instruction looks like, whatever index the loader gives it. -/
def Statement (i : Instr) : Prop :=
  ∀ k, (encode k i).index = k ∧ (encode k i).opcode.dataTag = i.dataTag ∧
    (i.dataTag = none → (encode k i).args.length = (encode k i).opcode.arity)

theorem hlt : Statement .hlt := fun _ => ⟨rfl, rfl, fun _ => rfl⟩

theorem jmp (t : Int) : Statement (.jmp t) := fun _ => ⟨rfl, rfl, fun _ => rfl⟩

theorem jz (t : Int) : Statement (.jz t) := fun _ => ⟨rfl, rfl, fun _ => rfl⟩

theorem jzR (t r : Int) : Statement (.jzR t r) := fun _ => ⟨rfl, rfl, fun _ => rfl⟩

theorem mov (rd imm : Int) : Statement (.mov rd imm) := fun _ => ⟨rfl, rfl, fun _ => rfl⟩

theorem loadV (rd a : Int) : Statement (.loadV rd a) := fun _ => ⟨rfl, rfl, fun _ => rfl⟩

theorem loadR (rd rp : Int) : Statement (.loadR rd rp) := fun _ => ⟨rfl, rfl, fun _ => rfl⟩

theorem storeV (a rs : Int) : Statement (.storeV a rs) := fun _ => ⟨rfl, rfl, fun _ => rfl⟩

theorem storeR (rp rs : Int) : Statement (.storeR rp rs) := fun _ => ⟨rfl, rfl, fun _ => rfl⟩

theorem next (rd rp : Int) : Statement (.next rd rp) := fun _ => ⟨rfl, rfl, fun _ => rfl⟩

theorem cmp (ra rb : Int) : Statement (.cmp ra rb) := fun _ => ⟨rfl, rfl, fun _ => rfl⟩

theorem inc (rd : Int) : Statement (.inc rd) := fun _ => ⟨rfl, rfl, fun _ => rfl⟩

theorem addMmr (md ms rs : Int) : Statement (.addMmr md ms rs) := fun _ => ⟨rfl, rfl, fun _ => rfl⟩

theorem modRrv (rd rs imm : Int) : Statement (.modRrv rd rs imm) := fun _ => ⟨rfl, rfl, fun _ => rfl⟩

theorem linear (rd ri imm : Int) : Statement (.linear rd ri imm) := fun _ => ⟨rfl, rfl, fun _ => rfl⟩

theorem linearCont (rd ri imm : Int) : Statement (.linearCont rd ri imm) := fun _ => ⟨rfl, rfl, fun _ => rfl⟩

theorem number (args : List Int) : Statement (.number args) := fun _ => ⟨rfl, rfl, fun h => nomatch h⟩

theorem string (args : List Int) : Statement (.string args) := fun _ => ⟨rfl, rfl, fun h => nomatch h⟩

theorem buffer (args : List Int) : Statement (.buffer args) := fun _ => ⟨rfl, rfl, fun h => nomatch h⟩

end Sys2Proof.Laws.Layout
end

