-- ==== Sys2Proof/Laws/Step.lean ====
section
/-! SUPPORT. Everything a step can do, and what the placing of an instruction gives the next step. -/

namespace Sys2Proof.Machine

/-- A step in a block whose run has ended. -/
theorem step_ended {s : State} (h : s.status ≠ .running) : step s = .fault (.notRunning s.status) := by
  simp [step, h]

/-- A running step with no record at `pc`. -/
theorem step_badPC {s : State} (h : s.status = .running) (hr : s.record? = none) :
    step s = .next (s.raise (.fault (.badPC s.pc))) := by
  simp [step, h, fetch_eq, hr]

/-- A running step of a record the decoder rejects. -/
theorem step_rejected {s : State} {r : MachineCode} {e : DecodeRejection} (h : s.status = .running)
    (hr : s.record? = some r) (hd : decode r = .error e) : step s = .next (s.raise (.fault (rejectionFault e))) := by
  simp [step, h, fetch_eq, hr, hd]

/-- A running step of a record that decodes. -/
theorem step_exec {s : State} {r : MachineCode} {i : Instr} (h : s.status = .running) (hr : s.record? = some r)
    (hd : decode r = .ok i) : step s = exec i s := by
  simp [step, h, fetch_eq, hr, hd]

/-- Everything a step that answers a next state can have done. -/
theorem step_cases {s t : State} (h : step s = .next t) :
    s.status = .running ∧
      ((s.record? = none ∧ t = s.raise (.fault (.badPC s.pc))) ∨
       (∃ r e, s.record? = some r ∧ decode r = .error e ∧ t = s.raise (.fault (rejectionFault e))) ∨
       ∃ r i, s.record? = some r ∧ decode r = .ok i ∧ exec i s = .next t) := by
  by_cases hs : s.status = .running
  · refine ⟨hs, ?_⟩
    cases hr : s.record? with
    | none =>
      rw [step_badPC hs hr] at h
      exact .inl ⟨rfl, by injection h with h; exact h.symm⟩
    | some r =>
      cases hd : decode r with
      | error e =>
        rw [step_rejected hs hr hd] at h
        exact .inr (.inl ⟨r, e, rfl, hd, by injection h with h; exact h.symm⟩)
      | ok i =>
        rw [step_exec hs hr hd] at h
        exact .inr (.inr ⟨r, i, rfl, hd, h⟩)
  · rw [step_ended hs] at h
    cases h

/-- A placed record is the one the next step fetches. -/
theorem record?_withRecord (r : MachineCode) (s : State) : (s.withRecord r).record? = some r := by
  unfold State.withRecord State.record? State.plen
  split
  · next h =>
    have hk : s.pc.toNat < s.pmem.length := by have := h.1; have := h.2; omega
    simp only [List.length_set, if_pos h]
    simp [hk]
  · rfl

@[simp] theorem status_withRecord (r : MachineCode) (s : State) : (s.withRecord r).status = .running := by
  unfold State.withRecord; split <;> rfl

/-- The next step runs a placed instruction. -/
theorem step_withRecord {r : MachineCode} {i : Instr} (s : State) (hd : decode r = .ok i) :
    step (s.withRecord r) = exec i (s.withRecord r) :=
  step_exec (status_withRecord r s) (record?_withRecord r s) hd

end Sys2Proof.Machine
end

