-- ==== Sys2Proof/Tests/Slice0.lean ====
section
/-! SUPPORT. Small tests, one step each, with the expected values of 95_test_vectors, and for each statement with hypotheses
a concrete case that meets them. -/

namespace Sys2Proof.Tests
open Sys2Proof Sys2Proof.Machine

/-- A block of 8 registers and the given cells, about to run at index 0 with no program. -/
def block (x : List Int) (cells : List Int) : State :=
  { State.reset with x := x, dmem := cells.map fun v => ⟨0, .NUMBER, v⟩ }

/-- The data memory of 95_test_vectors L2-3. -/
def cellsL23 : List Int := [100, 101, 30, 40, 50, 60]

/-- The data memory of 95_test_vectors L2-4. -/
def cellsL24 : List Int := [0, 0, 10, 0, -3, 5]

/-- The state an instruction gives, if it gives one. -/
def after (i : Instr) (s : State) : Option State :=
  match exec i s with
  | .next t => some t
  | .fault _ | .refused _ => none

/-- The state a step gives, if it gives one. -/
def stepped (s : State) : Option State :=
  match step s with
  | .next t => some t
  | .fault _ | .refused _ => none

/-! Well-formedness: a term each check refuses -/

theorem test_wellFormed_accepts : Instr.wellFormed 8 (.loadR 7 0) = true := by decide
theorem test_wellFormed_refuses_data_tag : Instr.wellFormed 8 (.number [5]) = false := by decide
theorem test_wellFormed_refuses_register_at_nreg : Instr.wellFormed 8 (.mov 8 1) = false := by decide
theorem test_wellFormed_refuses_negative_register : Instr.wellFormed 4 (.cmp 0 (-1)) = false := by decide

/-! Decoding: every opcode's record as 30_encoding R76 and the instruction rules write it -/

theorem test_decode_hlt : decode ⟨0, .HLT, []⟩ = .ok .hlt := by decide
theorem test_decode_jmp : decode ⟨0, .JMP, [7]⟩ = .ok (.jmp 7) := by decide
theorem test_decode_jz : decode ⟨0, .JZ, [9]⟩ = .ok (.jz 9) := by decide
theorem test_decode_jzR : decode ⟨0, .JZ_R, [6, 1]⟩ = .ok (.jzR 6 1) := by decide
theorem test_decode_mov : decode ⟨0, .MOV, [0, 5]⟩ = .ok (.mov 0 5) := by decide
theorem test_decode_loadV : decode ⟨0, .LOAD_V, [2, 4]⟩ = .ok (.loadV 2 4) := by decide
theorem test_decode_loadR : decode ⟨0, .LOAD_R, [1, 5]⟩ = .ok (.loadR 1 5) := by decide
theorem test_decode_storeV : decode ⟨0, .STORE_V, [1, 0]⟩ = .ok (.storeV 1 0) := by decide
theorem test_decode_storeR : decode ⟨0, .STORE_R, [6, 7]⟩ = .ok (.storeR 6 7) := by decide
theorem test_decode_next : decode ⟨0, .NEXT, [0, 1]⟩ = .ok (.next 0 1) := by decide
theorem test_decode_cmp : decode ⟨0, .CMP, [0, 1]⟩ = .ok (.cmp 0 1) := by decide
theorem test_decode_inc : decode ⟨0, .INC, [2]⟩ = .ok (.inc 2) := by decide
theorem test_decode_addMmr : decode ⟨0, .ADD_MMR, [3, 2, 1]⟩ = .ok (.addMmr 3 2 1) := by decide
theorem test_decode_modRrv : decode ⟨0, .MOD_RRV, [0, 1, 5]⟩ = .ok (.modRrv 0 1 5) := by decide
theorem test_decode_linear : decode ⟨0, .LINEAR, [1, 2, 4]⟩ = .ok (.linear 1 2 4) := by decide
theorem test_decode_linearCont : decode ⟨0, .LINEAR_CONT, [1, 2, 4]⟩ = .ok (.linearCont 1 2 4) := by decide
theorem test_decode_number : decode ⟨0, .NUMBER, [5]⟩ = .ok (.number [5]) := by decide
theorem test_decode_string : decode ⟨0, .STRING, [72]⟩ = .ok (.string [72]) := by decide
theorem test_decode_buffer : decode ⟨0, .BUFFER, [0, 9]⟩ = .ok (.buffer [0, 9]) := by decide
theorem test_decode_refuses_short : decode ⟨0, .ADD_MMR, [3, 2]⟩ = .error (.malformed ⟨0, .ADD_MMR, [3, 2]⟩) := by decide
theorem test_decode_refuses_long : decode ⟨0, .HLT, [3]⟩ = .error (.malformed ⟨0, .HLT, [3]⟩) := by decide

/-- The word of a row is its ordinal (30_encoding R83); 19 to 31 have no instruction. -/
theorem test_table_words :
    decodeTableWord 8 0 = some .hlt ∧ decodeTableWord 8 13 = some (.modRrv 0 0 0) ∧
    decodeTableWord 8 18 = some (.buffer [0]) ∧ decodeTableWord 8 19 = none ∧ decodeTableWord 8 31 = none := by decide

/-- Placed after reset, `INC r0` is what the first step runs. -/
theorem test_placed_word_runs :
    (stepped (State.reset.withFetchWord 8 11)).map (fun t => (t.reg 0, t.pc, t.tick, t.z)) = some (1, 1, 1, false) := by decide

/-- The codes 19 and 31 raise `InvalidOpcode` with no tick charged (30_encoding R83). -/
theorem test_placed_untagged_codes_raise :
    (stepped (State.reset.withFetchWord 8 19)).map (fun t => (t.status, t.pc, t.tick)) =
      some (.fault (.invalidOpcode (.untagged 0)), 0, 0) ∧
    (stepped (State.reset.withFetchWord 8 31)).map (fun t => t.status) = some (.fault (.invalidOpcode (.untagged 12))) := by
  decide

/-! Control flow: 95_test_vectors L2-2 -/

theorem test_hlt :
    after .hlt { State.reset with pc := 5, tick := 10 } =
      some { State.reset with pc := 5, tick := 10, status := .halted } := by decide
theorem test_jmp_negative : (after (.jmp (-1)) { State.reset with pc := 3 }).map (fun t => (t.pc, t.tick)) = some (-1, 1) := by
  decide
theorem test_jz_taken :
    (after (.jz 9) { State.reset with pc := 4, z := true }).map (fun t => (t.pc, t.tick, t.z)) = some (9, 1, true) := by decide
theorem test_jz_not_taken : (after (.jz 9) { State.reset with pc := 4 }).map (fun t => (t.pc, t.tick)) = some (5, 1) := by
  decide
theorem test_jzR_taken : (after (.jzR 6 1) State.reset).map (fun t => (t.pc, t.tick, t.z)) = some (6, 2, true) := by decide
theorem test_jzR_not_taken :
    (after (.jzR 6 1) { State.reset with x := [0, -1], z := true }).map (fun t => (t.pc, t.tick, t.z)) = some (1, 2, false) := by
  decide

/-! Data movement: 95_test_vectors L2-3 -/

theorem test_mov : (after (.mov 3 (-12)) State.reset).map (fun t => (t.reg 3, t.tick, t.z)) = some (-12, 1, false) := by decide
theorem test_loadV_cell_one :
    (after (.loadV 2 1) (block [0, 0, 0] cellsL23)).map (fun t => (t.reg 2, t.da, t.tick)) = some (101, 1, 2) := by decide
theorem test_loadV_end_of_input :
    (after (.loadV 2 0) (block [0, 0, 5] cellsL23)).map (fun t => (t.reg 2, t.da, t.tick, t.pc, t.status)) =
      some (5, 0, 1, 0, .endOfInput) := by decide
theorem test_loadR_same_register :
    (after (.loadR 5 5) (block [0, 0, 0, 0, 0, 3] cellsL23)).map (fun t => (t.reg 5, t.da, t.tick)) = some (40, 3, 2) := by decide
theorem test_storeV_port :
    (after (.storeV 1 0) (block [65] cellsL23)).map (fun t => (t.outq, t.payload? 1, t.da)) = some ([65], some 101, 1) := by decide
theorem test_storeV_cell_zero :
    (after (.storeV 0 0) (block [9] cellsL23)).map (fun t => (t.outq, t.payload? 0, t.payload? 1)) =
      some ([], some 9, some 101) := by decide
theorem test_storeR_no_port :
    (after (.storeR 1 2) (block [0, 1, 65] cellsL23)).map (fun t => (t.outq, t.payload? 1, t.tick)) = some ([], some 65, 2) := by
  decide
theorem test_next_flag :
    (after (.next 0 1) (block [0, -1] cellsL23)).map (fun t => (t.reg 0, t.reg 1, t.z, t.tick)) = some (100, 0, true, 3) := by decide
theorem test_next_bad_address :
    (after (.next 0 1) (block [7, 5] cellsL23)).map (fun t => (t.x, t.da, t.tick, t.status)) =
      some ([7, 6], 6, 2, .fault (.badDataAddress 6)) := by decide

/-! Arithmetic and compare: 95_test_vectors L2-4 -/

theorem test_cmp : (after (.cmp 0 1) (block [3, 4] [])).map (fun t => (t.z, t.x, t.tick)) = some (false, [3, 4], 1) := by decide
theorem test_inc_sets_the_flag : (after (.inc 1) (block [0, -1] [])).map (fun t => (t.reg 1, t.z)) = some (0, true) := by decide
theorem test_inc_leaves_the_flag :
    (after (.inc 0) { block [5] [] with z := true }).map (fun t => (t.reg 0, t.z)) = some (6, true) := by decide
theorem test_addMmr_in_place :
    (after (.addMmr 2 2 1) (block [0, 7] cellsL24)).map (fun t => (t.payload? 2, t.br, t.da, t.tick)) =
      some (some 17, 10, 2, 4) := by decide
theorem test_addMmr_bad_destination :
    (after (.addMmr 9 2 1) (block [0, -10] cellsL24)).map (fun t => (t.br, t.da, t.z, t.tick, t.status)) =
      some (10, 9, true, 3, .fault (.badDataAddress 9)) := by decide
theorem test_modRrv_floored :
    (after (.modRrv 0 1 (-3)) (block [0, 7] [])).map (fun t => (t.reg 0, t.br, t.tick)) = some (-2, 7, 2) := by decide
theorem test_modRrv_by_zero :
    (after (.modRrv 0 1 0) (block [4, 9] [])).map (fun t => (t.x, t.br, t.tick, t.status)) =
      some ([4, 9], 9, 1, .fault (.divideByZero 9)) := by decide
theorem test_linear_same_register :
    (after (.linear 1 1 (-5)) (block [0, -3] [])).map (fun t => (t.reg 1, t.br, t.tick)) = some (15, -5, 2) := by decide
theorem test_linearCont_two_flags :
    (after (.linearCont 1 2 0) (block [0, 7, 3] [])).map (fun t => (t.reg 1, t.br, t.z, t.tick)) = some (7, 0, true, 3) := by decide
theorem test_linearCont_same_register :
    (after (.linearCont 1 1 2) (block [0, 3] [])).map (fun t => (t.reg 1, t.br)) = some (9, 6) := by decide

/-! Decode faults: 95_test_vectors L2-5, each on the first step of a placed record -/

theorem test_step_buffer :
    (stepped (State.reset.withRecord ⟨0, .BUFFER, [0, 9]⟩)).map (fun t => (t.status, t.pc, t.tick)) =
      some (.fault (.invalidOpcode .BUFFER), 0, 0) := by decide
theorem test_step_malformed :
    (stepped (State.reset.withRecord ⟨0, .ADD_MMR, [3, 2]⟩)).map (fun t => (t.status, t.tick)) =
      some (.fault (.malformed ⟨0, .ADD_MMR, [3, 2]⟩), 0) := by decide
theorem test_step_bad_register :
    (stepped (State.reset.withRecord ⟨0, .CMP, [0, -1]⟩)).map (fun t => (t.status, t.tick)) =
      some (.fault (.badRegister (-1)), 0) := by decide

/-! Launch and drive: 95_test_vectors L1-1 and L2-5 -/

/-- The launch of Scenario A. -/
def scenarioA : Launch := { Launch.ofConfig with image := ⟨0, [⟨0, "MOV", [0, 5]⟩, ⟨1, "HLT", []⟩]⟩ }

/-- The state Scenario A starts in. -/
def startA : State := { State.reset with pmem := [⟨0, .MOV, [0, 5]⟩, ⟨1, .HLT, []⟩] }

theorem test_launch_scenarioA : scenarioA.start = .ok startA := by rfl
theorem test_drive_scenarioA :
    ((drive 100 startA).state.reg 0, (drive 100 startA).state.tick, (drive 100 startA).state.pc,
      (drive 100 startA).state.status, (drive 100 startA).instrCount) = (5, 1, 1, .halted, 2) := by decide
theorem test_reset_is_a_launch : Launch.ofConfig.start = .ok State.reset := by rfl
theorem test_launch_refuses_a_two_argument_data_entry :
    ({ Launch.ofConfig with image := ⟨1, [⟨0, "NUMBER", [1, 2]⟩]⟩ } : Launch).start =
      .error (.badDataEntry ⟨0, "NUMBER", [1, 2]⟩) := by rfl
theorem test_launch_refuses_an_unknown_opcode :
    ({ Launch.ofConfig with image := ⟨0, [⟨0, "SUB", []⟩]⟩ } : Launch).start = .error (.badCodeEntry ⟨0, "SUB", []⟩) := by rfl

/-! A case that meets the hypotheses of each statement that has some, clause by clause, at the ends of their ranges -/

/-- The block of 95_test_vectors L2-3, its registers all 0 but `x[1] = 5`, `x[2] = 1`, `x[7] = -1`. -/
def demo : State := block [0, 5, 1, 0, 0, 0, 0, -1] cellsL23

/-- The same with a program of one record at `pc`. -/
def demoWith (r : MachineCode) : State := demo.withRecord r

theorem wit_EncodeOfDecodeIsTheRecord : decode ⟨7, .LINEAR_CONT, [1, 2, 4]⟩ = .ok (.linearCont 1 2 4) := by decide

theorem wit_DecodeRefusesWrongAritiesAndUntaggedCodes :
    Opcode.dataTag .NUMBER ≠ none ∧ (Opcode.isInstr .LINEAR = true ∧ [1, 2, 3].length = Opcode.arity .LINEAR) ∧
    (Opcode.isInstr .HLT = true ∧ [(3 : Int)].length ≠ Opcode.arity .HLT) ∧
    (⟨0, .untagged 12, [4]⟩ : MachineCode).opcode = .untagged 12 := by decide

theorem wit_OrdinalsAndMnemonicsNameTheTags :
    Opcode.ofOrdinal? 0 = some .HLT ∧ Opcode.ofOrdinal? 18 = some .BUFFER ∧ Opcode.ofOrdinal? 19 = some (.untagged 0) ∧
    Opcode.ofOrdinal? 31 = some (.untagged 12) ∧ Opcode.ofOrdinal? 32 = none := by decide

theorem wit_StepRunsTheDecodedInstruction :
    startA.status = .running ∧ InRange startA.pc startA.plen ∧ startA.pmem[startA.pc.toNat]? = some ⟨0, .MOV, [0, 5]⟩ ∧
    decode ⟨0, .MOV, [0, 5]⟩ = .ok (.mov 0 5) := by decide

theorem wit_BlockStepsExactlyWhileRunning :
    State.reset.status = .running ∧ ({ State.reset with status := .halted } : State).status ≠ .running := by decide

theorem wit_FetchOutsideProgramMemoryRaisesBadPC :
    State.reset.status = .running ∧ ¬ InRange State.reset.pc State.reset.plen ∧ ¬ InRange (-1) startA.plen ∧
    ¬ InRange 2 startA.plen := by decide

theorem wit_DecodeFaultsInTheirOrder_opcode :
    (demoWith ⟨0, .BUFFER, [0, 9]⟩).status = .running ∧
    (demoWith ⟨0, .BUFFER, [0, 9]⟩).record? = some ⟨0, .BUFFER, [0, 9]⟩ ∧ Opcode.isInstr .BUFFER = false ∧
    (demoWith ⟨0, .untagged 0, [7]⟩).record? = some ⟨0, .untagged 0, [7]⟩ ∧ Opcode.isInstr (.untagged 0) = false := by decide

theorem wit_DecodeFaultsInTheirOrder_arity :
    (demoWith ⟨0, .MOV, [3]⟩).status = .running ∧ (demoWith ⟨0, .MOV, [3]⟩).record? = some ⟨0, .MOV, [3]⟩ ∧
    Opcode.isInstr .MOV = true ∧ [(3 : Int)].length ≠ Opcode.arity .MOV := by decide

theorem wit_DecodeFaultsInTheirOrder_register :
    (demoWith ⟨0, .CMP, [8, -1]⟩).status = .running ∧ (demoWith ⟨0, .CMP, [8, -1]⟩).record? = some ⟨0, .CMP, [8, -1]⟩ ∧
    Opcode.isInstr .CMP = true ∧ decode ⟨0, .CMP, [8, -1]⟩ = .ok (.cmp 8 (-1)) ∧
    (Instr.cmp 8 (-1)).regFields.find? (fun w => !decide (InRange w (demoWith ⟨0, .CMP, [8, -1]⟩).nreg)) = some 8 := by decide

theorem wit_BadRegisterFieldStopsEveryInstruction :
    (Instr.next 7 8).regFields = [7] ++ 8 :: [] ∧ (∀ w ∈ [(7 : Int)], InRange w demo.nreg) ∧ ¬ InRange 8 demo.nreg ∧
    ¬ InRange (-1) demo.nreg := by decide

theorem wit_JmpSetsThePc : startA.status = .running ∧ ¬ InRange 2 startA.plen ∧ ¬ InRange (-1) startA.plen := by decide

theorem wit_JzBranchesOnTheFlag :
    ({ startA with z := true } : State).status = .running ∧ ({ startA with z := true } : State).z = true ∧
    ¬ InRange 2 ({ startA with z := true } : State).plen := by decide

theorem wit_JzRComparesAndBranches :
    InRange 7 startA.nreg ∧ ¬ InRange 8 startA.nreg ∧
    (startA.status = .running ∧ InRange 0 startA.nreg ∧ startA.reg 0 = 0 ∧ ¬ InRange 2 startA.plen) := by decide

theorem wit_MovStoresTheLiteral :
    InRange 0 demo.nreg ∧ InRange 7 demo.nreg ∧ ¬ InRange 8 demo.nreg ∧ ¬ InRange (-1) demo.nreg := by decide

theorem wit_LoadVFromTheInputPort :
    InRange 7 ({ demo with inq := [0] } : State).nreg ∧ ({ demo with inq := [0] } : State).inq = 0 :: [] := by decide

theorem wit_LoadVAtTheEndOfInput : InRange 0 demo.nreg ∧ demo.inq = [] := by decide

theorem wit_LoadVFromACell :
    InRange 0 demo.nreg ∧ (1 : Int) ≠ 0 ∧ demo.payload? 1 = some 101 ∧ demo.payload? 5 = some 60 := by decide

theorem wit_LoadRFromThePointedCell :
    InRange 1 demo.nreg ∧ demo.payload? (demo.reg 1) = some 60 ∧ demo.payload? (demo.reg 0) = some 100 := by decide

theorem wit_StoreVToTheOutputPort : InRange 0 demo.nreg ∧ InRange 7 demo.nreg := by decide

theorem wit_StoreVToACell :
    InRange 0 demo.nreg ∧ (0 : Int) ≠ 1 ∧ InRange 0 demo.dlen ∧ (5 : Int) ≠ 1 ∧ InRange 5 demo.dlen := by decide

theorem wit_StoreRToThePointedCell :
    InRange 1 demo.nreg ∧ InRange 7 demo.nreg ∧ InRange (demo.reg 1) demo.dlen ∧ InRange (demo.reg 2) demo.dlen := by decide

theorem wit_NextIncrementsThenLoads :
    InRange 0 demo.nreg ∧ InRange 7 demo.nreg ∧ demo.payload? (demo.reg 7 + 1) = some 100 ∧
    demo.payload? (demo.reg 0 + 1) = some 101 := by decide

theorem wit_BadDataAddressOfLoadsAndStores :
    InRange 0 demo.nreg ∧ InRange 7 demo.nreg ∧ (¬ InRange 6 demo.dlen ∧ (6 : Int) ≠ 0 ∧ (6 : Int) ≠ 1) ∧
    ¬ InRange (-1) demo.dlen ∧ ¬ InRange (demo.reg 7) demo.dlen := by decide

theorem wit_BadDataAddressOfNext :
    InRange 0 demo.nreg ∧ InRange 1 demo.nreg ∧ ¬ InRange (demo.reg 1 + 1) demo.dlen := by decide

theorem wit_CmpSetsTheFlagToEquality : InRange 0 demo.nreg ∧ InRange 7 demo.nreg := by decide

theorem wit_IncAddsOne : InRange 7 demo.nreg := by decide

theorem wit_AddMmrAddsAcrossMemory :
    InRange 7 demo.nreg ∧ demo.payload? 0 = some 100 ∧ InRange 5 demo.dlen ∧ InRange 0 demo.dlen := by decide

theorem wit_BadDataAddressOfAddMmr :
    InRange 7 demo.nreg ∧ ¬ InRange (-1) demo.dlen ∧ (demo.payload? 2 = some 30 ∧ ¬ InRange 6 demo.dlen) := by decide

theorem wit_ModRrvLeavesTheFlooredRemainder :
    InRange 0 demo.nreg ∧ InRange 1 demo.nreg ∧ (demo.reg 1 = 3 * 1 + 2 ∧ ((0 : Int) ≤ 2 ∧ (2 : Int) < 3)) ∧
    (demo.reg 1 = -3 * -2 + -1 ∧ ((-3 : Int) < -1 ∧ (-1 : Int) ≤ 0)) ∧ (3 : Int) ≠ 0 ∧ (0 : Int) = 0 := by decide

theorem wit_LinearScalesTheIndex : InRange 0 demo.nreg ∧ InRange 7 demo.nreg := by decide

theorem wit_LinearContAccumulatesTheIndex : InRange 7 demo.nreg ∧ InRange 0 demo.nreg := by decide

theorem wit_ComputedAddressStoresLikeADirectOne : InRange 0 demo.nreg ∧ InRange 1 demo.nreg ∧ InRange 7 demo.nreg := by decide

theorem wit_OnlyZeroAndOneTouchTheFlag :
    (demo.alu .ADD (-1) 1 = .ok (0, { demo with z := true })) ∧ (demo.alu .MUL (-1) (-1) = .ok (1, { demo with z := false })) ∧
    (demo.alu .MOD (-7) 3 = .ok (2, demo)) := by decide

theorem wit_CompareTestsEqualityOnly :
    (4 : Int) = 4 ∧ (-1 : Int) ≠ 1 ∧ (∃ t, exec (.cmp 0 7) demo = .next t) ∧ ∃ t, exec (.jzR 0 7) demo = .next t :=
  ⟨rfl, by decide, ⟨_, rfl⟩, _, rfl⟩

theorem wit_RemainderTakesTheDivisorsSign : (0 : Int) = 0 ∧ ((1 : Int) ≠ 0 ∧ (0 : Int) < 1) ∧ ((-1 : Int) ≠ 0 ∧ (-1 : Int) < 0) := by
  decide

theorem wit_ControlFlowFrame :
    (Instr.jz 9).isControlFlow = true ∧ ∃ t, exec (.jz 9) demo = .next t ∧ ∀ tgt r, Instr.jz 9 ≠ .jzR tgt r :=
  ⟨rfl, _, rfl, by intro _ _ h; cases h⟩

theorem wit_RegisterInstructionFrame :
    (∃ t, exec (.mov 7 0) demo = .next t) ∧ (∃ t, exec (.inc 7) demo = .next t) ∧ (∃ t, exec (.modRrv 0 1 3) demo = .next t) ∧
    (∃ t, exec (.linear 0 1 3) demo = .next t) ∧ (∃ t, exec (.linearCont 0 1 3) demo = .next t) ∧ InRange 6 demo.nreg ∧
    (6 : Int) ≠ 7 :=
  ⟨⟨_, rfl⟩, ⟨_, rfl⟩, ⟨_, rfl⟩, ⟨_, rfl⟩, ⟨_, rfl⟩, by decide, by decide⟩

theorem wit_LoadFrame :
    (∃ t, exec (.loadV 0 5) demo = .next t) ∧ (∃ t, exec (.loadR 0 1) demo = .next t) ∧ (5 : Int) ≠ 0 ∧ InRange 7 demo.nreg ∧
    (7 : Int) ≠ 0 :=
  ⟨⟨_, rfl⟩, ⟨_, rfl⟩, by decide, by decide, by decide⟩

theorem wit_NextFrame :
    (∃ t, exec (.next 0 7) demo = .next t) ∧ InRange 1 demo.nreg ∧ (1 : Int) ≠ 0 ∧ (1 : Int) ≠ 7 :=
  ⟨⟨_, rfl⟩, by decide, by decide, by decide⟩

theorem wit_StoreFrame :
    (∃ t, exec (.storeV 1 7) demo = .next t) ∧ (∃ t, exec (.storeV 0 7) demo = .next t) ∧
    (∃ t, exec (.storeR 1 7) demo = .next t) ∧ (∃ t, exec (.addMmr 2 3 7) demo = .next t) ∧ Instr.storeV 0 7 ≠ .storeV 1 7 :=
  ⟨⟨_, rfl⟩, ⟨_, rfl⟩, ⟨_, rfl⟩, ⟨_, rfl⟩, by decide⟩

theorem wit_CompareAndDataTagFrame :
    (∃ t, exec (.cmp 0 7) demo = .next t) ∧ (∃ t, exec (.string [1, 2]) demo = .next t) ∧ (Instr.string [1, 2]).dataTag ≠ none :=
  ⟨⟨_, rfl⟩, ⟨_, rfl⟩, by decide⟩

theorem wit_CompletedInstructionChargesItsTicks :
    demo.status = .running ∧ (∃ t, exec (.addMmr 2 3 7) demo = .next t ∧ t.status = .running) ∧
    (Instr.addMmr 2 3 7).isControlFlow = false ∧ ∃ t, exec .hlt demo = .next t :=
  ⟨rfl, ⟨_, rfl, rfl⟩, rfl, _, rfl⟩

theorem wit_EndingStepKeepsPcMemoriesAndQueues :
    ∃ t, step (demoWith ⟨0, .ADD_MMR, [9, 2, 1]⟩) = .next t ∧ t.status ≠ .running :=
  ⟨_, rfl, by decide⟩

theorem wit_TickNeverDecreases : ∃ t, step startA = .next t ∧ t.status = .running := ⟨_, rfl, rfl⟩

theorem wit_StepKeepsTheShape :
    (demoWith ⟨0, .STORE_V, [5, 1]⟩).shape = ⟨8, List.replicate 6 (0, .NUMBER), [⟨0, .STORE_V, [5, 1]⟩]⟩ ∧
    ∃ t, step (demoWith ⟨0, .STORE_V, [5, 1]⟩) = .next t :=
  ⟨rfl, _, rfl⟩

theorem wit_QueuesChangeOnlyAtTheirPorts :
    (∃ t, exec (.storeV 1 7) demo = .next t) ∧ (∃ t, exec (.loadV 7 0) { demo with inq := [9] } = .next t) ∧ InRange 7 demo.nreg ∧
    ((∃ t, exec (.storeR 2 7) demo = .next t) ∧ (∀ rs, Instr.storeR 2 7 = .storeV 1 rs → ¬ InRange rs demo.nreg) ∧
      ∀ rd, Instr.storeR 2 7 = .loadV rd 0 → ¬ InRange rd demo.nreg) :=
  ⟨⟨_, rfl⟩, ⟨_, rfl⟩, by decide, ⟨_, rfl⟩, (by intro _ h; cases h), (by intro _ h; cases h)⟩

theorem wit_OnlyDestinationsAreWritten :
    (∃ t, exec (.next 0 7) demo = .next t) ∧ InRange 1 demo.nreg ∧ (1 : Int) ∉ (Instr.next 0 7).destinations :=
  ⟨⟨_, rfl⟩, by decide, by decide⟩

theorem wit_OnlyAluInstructionsWriteTheFlag : ∃ t, exec (.inc 7) demo = .next t ∧ t.z ≠ demo.z := ⟨_, rfl, by decide⟩

theorem wit_NormalEndsHaveOneCauseEach :
    (∃ t, step (demoWith ⟨0, .HLT, []⟩) = .next t ∧ t.status = .halted) ∧
    ∃ t, step (demoWith ⟨0, .LOAD_V, [7, 0]⟩) = .next t ∧ t.status = .endOfInput :=
  ⟨⟨_, rfl, rfl⟩, _, rfl, rfl⟩

/-- A launch with two data entries and one code entry. -/
def launchB : Launch := { Launch.ofConfig with image := ⟨2, [⟨0, "NUMBER", [3]⟩, ⟨1, "STRING", [4]⟩, ⟨2, "JMP", [0]⟩]⟩ }

theorem wit_LaunchLoadsTheImageInOrder :
    ∃ s, launchB.start = .ok s ∧ s.dmem[1]? = some ⟨1, .STRING, 4⟩ ∧ s.pmem[0]? = some ⟨2, .JMP, [0]⟩ :=
  ⟨_, rfl, rfl, rfl⟩

theorem wit_LaunchFixesTheRestOfTheState : ∃ s, launchB.start = .ok s ∧ ((7 : Nat) : Int) < launchB.nreg :=
  ⟨_, rfl, by decide⟩

theorem wit_NoRegistersNeverStarts :
    ({ launchB with nreg := 0 } : Launch).nreg ≤ 0 ∧ ({ launchB with nreg := -1 } : Launch).nreg ≤ 0 := by decide

theorem wit_LaunchStartsExactlyOnAWellFormedImage : ∃ s, launchB.start = .ok s := ⟨_, rfl⟩

theorem wit_DriveOverrunsTheLimitByAtMostThree : startA.tick ≤ 0 + 3 ∧ ({ startA with tick := 3 } : State).tick ≤ 0 + 3 := by
  decide

end Sys2Proof.Tests
end

/-! PROOFS. Data memory and the ports (20_memory). -/

namespace Sys2Proof.Machine

/-- `STORE_V 1, rs` as its signals: the latch takes the operand, and the port, not a cell, takes the register's integer
(42_data_movement R154, 40_alu_datapath R119). -/
theorem exec_storeV_outputPort {s : State} {rs : Int} (h : InRange rs s.nreg) :
    exec (.storeV 1 rs) s = .next ((s.latchDataAddress 1).charge.writeOutput (s.reg rs)).advance := by
  rw [exec_storeV]
  have fieldsInRange : ∀ v ∈ [rs], InRange v s.nreg := by simpa using h
  exact runSignals_ok fieldsInRange rfl

/-- Settles O20: `STORE_V 1, rs` takes the output-port branch, whose four signals write the latch, the output queue, `pc`
and two ticks. -/
theorem storeVToTheOutputPort : Obligations.StoreVToTheOutputPort := by
  unfold Obligations.StoreVToTheOutputPort
  intro s rs hrs
  rw [exec_storeV_outputPort hrs]
  rfl

end Sys2Proof.Machine

/-! PROOFS. The ALU and the datapath (40_alu_datapath). -/

namespace Sys2Proof.Machine

/-- `LOAD_V rd, 0` with input as its signals: the latch takes the operand, and the register takes the code removed from the
queue, with no read of data memory between them (40_alu_datapath R110, R119). -/
theorem exec_loadV_inputPort {s : State} {rd : Int} {c : Nat} {rest : List Nat} (hrd : InRange rd s.nreg)
    (hinq : s.inq = c :: rest) :
    exec (.loadV rd 0) s = .next ((s.latchDataAddress 0).charge.popInput.latchRegister rd c).advance := by
  rw [exec_loadV]
  have fieldsInRange : ∀ v ∈ [rd], InRange v s.nreg := by simpa using hrd
  have front : (s.latchDataAddress 0).charge.readInput = .ok ((c : Int), (s.latchDataAddress 0).charge.popInput) :=
    readInput_cons hinq
  refine runSignals_ok fieldsInRange ?_
  simp only [loadOperand_input, front]
  rfl

/-- Settles O16: the state the input-port branch ends in, with the queue's tail written as `rest`. -/
theorem loadVFromTheInputPort : Obligations.LoadVFromTheInputPort := by
  unfold Obligations.LoadVFromTheInputPort
  intro s rd c rest hrd hinq
  have tail : s.inq.tail = rest := by rw [hinq]; rfl
  refine ⟨_, exec_loadV_inputPort hrd hinq, wroteReg_of_set hrd rfl, ?_⟩
  rw [← tail]
  rfl

/-- An ALU call that returns has written the flag alone, by the 0/1 rule on the result it returns (40_alu_datapath R100,
R101). -/
theorem alu_ok_state {op : AluOp} {l r v : Int} {s t : State} (h : s.alu op l r = .ok (v, t)) :
    t = s.setFlag (flagAfter v s.z) := by
  unfold State.alu at h
  cases hresult : aluResult op l r with
  | none => simp [hresult] at h
  | some w =>
    simp only [hresult, Except.ok.injEq, Prod.mk.injEq] at h
    obtain ⟨rfl, rfl⟩ := h
    rfl

/-- Settles O35: the flag an ALU call leaves is `flagAfter` of its result, at 0, at 1 and at any other integer. -/
theorem onlyZeroAndOneTouchTheFlag : Obligations.OnlyZeroAndOneTouchTheFlag := by
  unfold Obligations.OnlyZeroAndOneTouchTheFlag
  intro op l r v s t h
  rw [alu_ok_state h]
  refine ⟨?_, ?_, fun h0 h1 => ?_⟩
  · rintro rfl
    rfl
  · rintro rfl
    rfl
  · rw [flagAfter_other s.z h0 h1]
    rfl

/-- A part of the state that neither `raise` nor an instruction's signals change is the same after the instruction. -/
theorem runSignals_keeps {α : Type} (part : State → α) {fields : List Int} {f : State → Except State State} {s t : State}
    (raiseKeeps : ∀ c, part (s.raise c) = part s) (signalsKeep : ∀ u, f s = .ok u ∨ f s = .error u → part u = part s)
    (h : runSignals fields f s = .next t) : part t = part s := by
  rcases runSignals_cases fields f s with ⟨v, -, hbad⟩ | ⟨-, u, hu, hnext⟩
  · obtain rfl := Host.Outcome.next.inj (hbad.symm.trans h)
    exact raiseKeeps _
  · obtain rfl := Host.Outcome.next.inj (hnext.symm.trans h)
    exact signalsKeep u hu

/-- `CMP` writes no register, its own operands included (43_arithmetic R181). -/
theorem exec_cmp_keeps_x {a b : Int} {s t : State} (h : exec (.cmp a b) s = .next t) : t.x = s.x := by
  rw [exec_cmp] at h
  refine runSignals_keeps State.x (fun _ => rfl) (fun u hu => ?_) h
  rcases hu with hok | herr
  · obtain rfl := Except.ok.inj hok
    rfl
  · cases herr

/-- `JZ_R` writes no register: its compare leaves the flag and its branch `pc` (41_control_flow R134). -/
theorem exec_jzR_keeps_x {a b : Int} {s t : State} (h : exec (.jzR a b) s = .next t) : t.x = s.x := by
  rw [exec_jzR] at h
  refine runSignals_keeps State.x (fun _ => rfl) (fun u hu => ?_) h
  rcases hu with hok | herr
  · obtain rfl := Except.ok.inj hok
    exact State.branch_x _ _
  · cases herr

/-- Settles O36: `alu_cmp` at equal and at unequal operands, and the register file after each instruction that compares. -/
theorem compareTestsEqualityOnly : Obligations.CompareTestsEqualityOnly := by
  unfold Obligations.CompareTestsEqualityOnly
  refine ⟨fun l r s => ⟨fun heq => ?_, fun hne => ?_⟩, fun a b s t h => ?_⟩
  · rw [alu_cmp, if_pos heq, decide_eq_true heq]
    rfl
  · rw [alu_cmp, if_neg hne, decide_eq_false hne]
    rfl
  · rcases h with hcmp | hjzR
    · exact exec_cmp_keeps_x hcmp
    · exact exec_jzR_keeps_x hjzR

end Sys2Proof.Machine

/-! PROOFS. Terminal conditions and the refused launch (60_exceptions). -/

namespace Sys2Proof.Machine

/-- Settles O11: `HLT` is `raise Halt` and no other signal, and `raise` writes the status alone (R210, R211). -/
theorem hltHaltsWithoutATick : Obligations.HltHaltsWithoutATick := by
  unfold Obligations.HltHaltsWithoutATick
  intro s
  calc exec .hlt s
    _ = .next (s.raise .halt) := exec_hlt s
    _ = .next { s with status := .halted } := rfl

/-- `LOAD_V rd, 0` without input as its signals: the latch takes the operand and its tick is charged before `ReadInput`
raises, and no later signal runs (60_exceptions R212, 40_alu_datapath R119). -/
theorem exec_loadV_endOfInput {s : State} {rd : Int} (hrd : InRange rd s.nreg) (hinq : s.inq = []) :
    exec (.loadV rd 0) s = .next ((s.latchDataAddress 0).charge.raise .endOfInput) := by
  rw [exec_loadV]
  have fieldsInRange : ∀ v ∈ [rd], InRange v s.nreg := by simpa using hrd
  have front : (s.latchDataAddress 0).charge.readInput = .error ((s.latchDataAddress 0).charge.raise .endOfInput) :=
    readInput_nil hinq
  refine runSignals_raised fieldsInRange ?_
  simp only [loadOperand_input, front]
  rfl

/-- Settles O17: the state the empty input port ends the run in, field by field. -/
theorem loadVAtTheEndOfInput : Obligations.LoadVAtTheEndOfInput := by
  unfold Obligations.LoadVAtTheEndOfInput
  intro s rd hrd hinq
  rw [exec_loadV_endOfInput hrd hinq]
  rfl

/-- Settles O57: `NREG` is tested first, so a launch that fails the test is refused whatever its image holds (R215,
70_reset_and_hazards R243). -/
theorem noRegistersNeverStarts : Obligations.NoRegistersNeverStarts := by
  unfold Obligations.NoRegistersNeverStarts
  intro l hnreg
  have notPositive : ¬ 0 < l.nreg := Int.not_lt.mpr hnreg
  rw [Launch.start, if_neg notPositive]

end Sys2Proof.Machine

/-! PROOFS. What a launch loads (70_reset_and_hazards). -/

namespace Sys2Proof.Machine

/-- A tag found by its mnemonic string has that mnemonic (30_encoding R71, R75). -/
theorem mnemonic_of_ofMnemonic? {name : String} {op : Opcode} (h : Opcode.ofMnemonic? name = some op) :
    op.mnemonic = some name := by
  unfold Opcode.ofMnemonic? at h
  have found := List.find?_some h
  exact beq_iff_eq.mp found

/-- A data entry's cell keeps its index and its one argument, and its tag is the one the entry's string names
(30_encoding R74, R75). -/
theorem ImageEntry.dataCell?_some {e : ImageEntry} {c : DataCell} (h : e.dataCell? = some c) :
    ∃ op : Opcode, e.index = c.index ∧ op.mnemonic = some e.opcode ∧ op.dataTag = some c.tag ∧ e.args = [c.payload] := by
  unfold ImageEntry.dataCell? at h
  split at h
  next tag v htag hargs =>
    obtain ⟨op, hop, hdata⟩ := Option.bind_eq_some_iff.mp htag
    obtain rfl := Option.some.inj h
    exact ⟨op, rfl, mnemonic_of_ofMnemonic? hop, hdata, hargs⟩
  next => cases h

/-- A code entry's record keeps its index and arguments, and its opcode is the one the entry's string names
(30_encoding R75). -/
theorem ImageEntry.record?_some {e : ImageEntry} {r : MachineCode} (h : e.record? = some r) :
    e.index = r.index ∧ r.opcode.mnemonic = some e.opcode ∧ e.args = r.args := by
  obtain ⟨op, hop, rfl⟩ := Option.map_eq_some_iff.mp h
  exact ⟨rfl, mnemonic_of_ofMnemonic? hop, rfl⟩

/-- Loading that succeeds has taken every entry, none refused, none lost and none moved. -/
theorem loadEntries_ok {α : Type} {f : ImageEntry → Option α} {err : ImageEntry → LaunchError} {es : List ImageEntry}
    {as : List α} (h : loadEntries f err es = .ok as) : es.map f = as.map some := by
  induction es generalizing as with
  | nil =>
    obtain rfl := Except.ok.inj h
    rfl
  | cons e es ih =>
    cases he : f e with
    | none => simp [loadEntries, he] at h
    | some a =>
      cases htail : loadEntries f err es with
      | error r => simp [loadEntries, he, htail] at h
      | ok rest =>
        obtain rfl : a :: rest = as := by simpa [loadEntries, he, htail] using h
        simp [he, ih htail]

/-- The value at a position of a loaded list is what the entry at that position gives. -/
theorem entry_of_loaded {α : Type} {f : ImageEntry → Option α} {es : List ImageEntry} {as : List α}
    (h : es.map f = as.map some) {k : Nat} {a : α} (ha : as[k]? = some a) : ∃ e, es[k]? = some e ∧ f e = some a := by
  have mapped : (es.map f)[k]? = some (some a) := by rw [h, List.getElem?_map, ha, Option.map_some]
  rwa [List.getElem?_map, Option.map_eq_some_iff] at mapped

/-- An image that loads has a `data_length` within its entries, and is cut there into the cells and the program
(30_encoding R75). -/
theorem Image.load_ok {image : Image} {cells : Memory} {code : List MachineCode} (h : image.load = .ok (cells, code)) :
    (0 ≤ image.dataLength ∧ image.dataLength ≤ (image.entries.length : Int)) ∧
    (image.entries.take image.dataLength.toNat).map ImageEntry.dataCell? = cells.map some ∧
    (image.entries.drop image.dataLength.toNat).map ImageEntry.record? = code.map some := by
  unfold Image.load at h
  split at h
  case isFalse => cases h
  case isTrue fits =>
    split at h
    next => cases h
    next hcells =>
      split at h
      next => cases h
      next hcode =>
        cases h
        exact ⟨fits, loadEntries_ok hcells, loadEntries_ok hcode⟩

/-- The memories a launch starts with are those its image loads to (70_reset_and_hazards R241). -/
theorem Launch.start_ok_load {l : Launch} {s : State} (h : l.start = .ok s) : l.image.load = .ok (s.dmem, s.pmem) := by
  unfold Launch.start at h
  split at h
  case isFalse => cases h
  case isTrue =>
    split at h
    next => cases h
    next hload =>
      cases h
      exact hload

/-- Settles O55: the image is cut at `data_length`, so the cell at `k` comes from entry `k` and the record at `k` from entry
`data_length + k`, and the two lengths add up to the image's. -/
theorem launchLoadsTheImageInOrder : Obligations.LaunchLoadsTheImageInOrder := by
  unfold Obligations.LaunchLoadsTheImageInOrder
  intro l s hstart
  obtain ⟨⟨nonneg, fits⟩, hdata, hcode⟩ := Image.load_ok (Launch.start_ok_load hstart)
  have dlen_eq : s.dlen = l.image.dataLength.toNat := by
    have lengths := congrArg List.length hdata
    simp only [List.length_map, List.length_take] at lengths
    unfold State.dlen
    omega
  have plen_eq : s.plen = l.image.entries.length - l.image.dataLength.toNat := by
    have lengths := congrArg List.length hcode
    simp only [List.length_map, List.length_drop] at lengths
    exact lengths.symm
  refine ⟨by omega, by omega, fun k c hc => ?_, fun k r hr => ?_⟩
  · obtain ⟨e, he, hcell⟩ := entry_of_loaded hdata hc
    obtain ⟨op, fromEntry⟩ := ImageEntry.dataCell?_some hcell
    rw [List.getElem?_take, Option.ite_none_right_eq_some] at he
    exact ⟨e, op, he.2, fromEntry⟩
  · obtain ⟨e, he, hrecord⟩ := entry_of_loaded hcode hr
    rw [List.getElem?_drop, ← dlen_eq] at he
    exact ⟨e, he, ImageEntry.record?_some hrecord⟩

end Sys2Proof.Machine

/-! PROOFS. Records and instructions (30_encoding). -/

namespace Sys2Proof

/-- The arity check of 30_encoding R77 gave this answer for a record: with `n` arguments an instruction the record is the
record of, with another number `Malformed`. -/
def ArityChecked (n : Nat) (r : MachineCode) (answer : Except DecodeRejection Instr) : Prop :=
  (r.args.length = n ∧ ∃ i, answer = .ok i ∧ encode r.index i = r) ∨
  (r.args.length ≠ n ∧ answer = .error (.malformed r))

section
variable {k : Int} {op : Opcode} (args : List Int)

theorem arity0_checked {i : Instr} (layout : encode k i = ⟨k, op, []⟩) :
    ArityChecked 0 ⟨k, op, args⟩ (MachineCode.arity0 ⟨k, op, args⟩ i) := by
  match args with
  | [] => exact .inl ⟨rfl, i, rfl, layout⟩
  | _ :: _ => exact .inr ⟨by simp, rfl⟩

theorem arity1_checked {i : Int → Instr} (layout : ∀ a, encode k (i a) = ⟨k, op, [a]⟩) :
    ArityChecked 1 ⟨k, op, args⟩ (MachineCode.arity1 ⟨k, op, args⟩ i) := by
  match args with
  | [a] => exact .inl ⟨rfl, i a, rfl, layout a⟩
  | [] | _ :: _ :: _ => exact .inr ⟨by simp, rfl⟩

theorem arity2_checked {i : Int → Int → Instr} (layout : ∀ a b, encode k (i a b) = ⟨k, op, [a, b]⟩) :
    ArityChecked 2 ⟨k, op, args⟩ (MachineCode.arity2 ⟨k, op, args⟩ i) := by
  match args with
  | [a, b] => exact .inl ⟨rfl, i a b, rfl, layout a b⟩
  | [] | [_] | _ :: _ :: _ :: _ => exact .inr ⟨by simp, rfl⟩

theorem arity3_checked {i : Int → Int → Int → Instr} (layout : ∀ a b c, encode k (i a b c) = ⟨k, op, [a, b, c]⟩) :
    ArityChecked 3 ⟨k, op, args⟩ (MachineCode.arity3 ⟨k, op, args⟩ i) := by
  match args with
  | [a, b, c] => exact .inl ⟨rfl, i a b c, rfl, layout a b c⟩
  | [] | [_] | [_, _] | _ :: _ :: _ :: _ :: _ => exact .inr ⟨by simp, rfl⟩

end

/-- Everything `decode` answers for an instruction tag. -/
theorem decode_checked {r : MachineCode} (hi : r.opcode.isInstr = true) :
    ArityChecked r.opcode.arity r (decode r) := by
  obtain ⟨k, op, args⟩ := r
  cases op with
  | HLT => exact arity0_checked args rfl
  | JMP | JZ | INC => exact arity1_checked args fun _ => rfl
  | JZ_R | MOV | LOAD_V | LOAD_R | STORE_V | STORE_R | NEXT | CMP => exact arity2_checked args fun _ _ => rfl
  | ADD_MMR | MOD_RRV | LINEAR | LINEAR_CONT => exact arity3_checked args fun _ _ _ => rfl
  | NUMBER | STRING | BUFFER | untagged => cases hi

/-- An instruction tag with its arity of arguments decodes (30_encoding R77). -/
theorem decode_of_arity {r : MachineCode} (hi : r.opcode.isInstr = true) (ha : r.args.length = r.opcode.arity) :
    ∃ i, decode r = .ok i := by
  rcases decode_checked hi with ⟨-, i, hd, -⟩ | ⟨hne, -⟩
  · exact ⟨i, hd⟩
  · exact absurd ha hne

/-- An instruction tag with another number of arguments is `Malformed` (30_encoding R77). -/
theorem decode_malformed {r : MachineCode} (hi : r.opcode.isInstr = true) (ha : r.args.length ≠ r.opcode.arity) :
    decode r = .error (.malformed r) := by
  rcases decode_checked hi with ⟨heq, -⟩ | ⟨-, hd⟩
  · exact absurd heq ha
  · exact hd

/-- A data tag decodes with any number of arguments (log 9). -/
theorem decode_of_dataTag {r : MachineCode} (h : r.opcode.dataTag ≠ none) : ∃ i, decode r = .ok i := by
  obtain ⟨k, op, args⟩ := r
  cases op with
  | NUMBER | STRING | BUFFER => exact ⟨_, rfl⟩
  | _ => exact absurd rfl h

/-- A code without a tag is refused with any number of arguments (30_encoding R83). -/
theorem decode_untagged {r : MachineCode} {k : Fin 13} (h : r.opcode = .untagged k) :
    decode r = .error (.invalidOpcode r.opcode) := by
  simp [decode, h]

/-- Settles O1: each instruction's record has the arguments its opcode's arity asks for, in the order they are read. -/
theorem decodeOfEncodeIsIdentity : Obligations.DecodeOfEncodeIsIdentity := by
  unfold Obligations.DecodeOfEncodeIsIdentity
  intro k i
  cases i <;> rfl

/-- Settles O2: an instruction tag by `decode_checked`; a data tag takes its arguments whole. -/
theorem encodeOfDecodeIsTheRecord : Obligations.EncodeOfDecodeIsTheRecord := by
  unfold Obligations.EncodeOfDecodeIsTheRecord
  intro r i hd
  by_cases hi : r.opcode.isInstr = true
  · rcases decode_checked hi with ⟨-, j, hj, layout⟩ | ⟨-, hbad⟩
    · obtain rfl := Except.ok.inj (hj.symm.trans hd)
      exact layout
    · cases hbad.symm.trans hd
  · obtain ⟨k, op, args⟩ := r
    cases op with
    | NUMBER | STRING | BUFFER =>
      obtain rfl := Except.ok.inj hd
      rfl
    | untagged => cases hd
    | _ => exact absurd rfl hi

/-- Settles O3: the four clauses, by the class of the opcode and the number of arguments. -/
theorem decodeRefusesWrongAritiesAndUntaggedCodes : Obligations.DecodeRefusesWrongAritiesAndUntaggedCodes := by
  unfold Obligations.DecodeRefusesWrongAritiesAndUntaggedCodes
  exact fun r => ⟨decode_of_dataTag, decode_of_arity, decode_malformed, fun _ => decode_untagged⟩

/-- Settles O4: each record has its opcode's arity of arguments, and the `BUFFER` record needs none. -/
theorem recordsWrittenFromTheSpecDecode : Obligations.RecordsWrittenFromTheSpecDecode := by
  unfold Obligations.RecordsWrittenFromTheSpecDecode
  exact ⟨rfl, rfl, rfl, rfl, rfl, rfl, rfl⟩

/-- A number of arguments with which an instruction tag decodes is the only one (30_encoding R76, R77). -/
theorem encoded_of_decode {op : Opcode} {args : List Int} {i : Instr} (hi : op.isInstr = true)
    (hd : ∀ k, decode ⟨k, op, args⟩ = .ok i) : Encoded op args i := by
  have harity : args.length = op.arity := by
    by_contra hne
    cases (decode_malformed (r := ⟨0, op, args⟩) hi hne).symm.trans (hd 0)
  exact ⟨hd, fun _ _ hbad => decode_malformed hi (harity ▸ hbad)⟩

/-- An opcode stands in the list of opcodes at its code (30_encoding R83). -/
theorem Opcode.all_getElem?_ordinal (op : Opcode) : Opcode.all[op.ordinal]? = some op := by
  cases op with
  | untagged k => revert k; decide
  | _ => rfl

/-- The list of opcodes holds at a position the opcode of that code (30_encoding R83). -/
theorem Opcode.ordinal_of_getElem? {c : Nat} {op : Opcode} (h : Opcode.all[c]? = some op) : op.ordinal = c := by
  have codes : Opcode.all.map Opcode.ordinal = List.range 32 := by decide
  have mapped : (List.range 32)[c]? = some op.ordinal := by rw [← codes, List.getElem?_map, h, Option.map_some]
  obtain ⟨hlt, hc⟩ := List.getElem?_eq_some_iff.mp mapped
  rw [← hc, List.getElem_range]

/-- The tag a mnemonic string names is found by that string (30_encoding R71, R75). -/
theorem ofMnemonic?_of_mnemonic {name : String} {op : Opcode} (h : op.mnemonic = some name) :
    Opcode.ofMnemonic? name = some op := by
  cases op with
  | untagged => cases h
  | _ => obtain rfl := Option.some.inj h; rfl

/-- Settles O5: codes through the list of the 32 opcodes, mnemonics through the search in it. -/
theorem ordinalsAndMnemonicsNameTheTags : Obligations.OrdinalsAndMnemonicsNameTheTags := by
  unfold Obligations.OrdinalsAndMnemonicsNameTheTags
  refine ⟨fun c op => ⟨Opcode.ordinal_of_getElem?, ?_⟩, fun c => List.getElem?_eq_none_iff, fun op => ?_,
    fun name op => ⟨Machine.mnemonic_of_ofMnemonic?, ofMnemonic?_of_mnemonic⟩⟩
  · rintro rfl
    exact op.all_getElem?_ordinal
  · cases op with
    | untagged k =>
      have noDataTag : 19 ≤ 19 + k.val := Nat.le_add_right 19 k
      simp [Opcode.isInstr, Opcode.dataTag, Opcode.mnemonic, Opcode.ordinal, (by decide : 16 ≤ 19).trans noDataTag]
    | _ => decide

end Sys2Proof

/-! PROOFS. What each instruction does: one relation for all of `exec` (41_control_flow, 42_data_movement,
43_arithmetic). -/

namespace Sys2Proof.Machine

/-- The effect of an instruction, case by case as the chain of its signals (40_alu_datapath R119): one completed form for
each instruction and port, and one form for each condition it can raise. `exec_iff_effect` ties it to `exec`. -/
inductive Effect : Instr → State → State → Prop
  | badRegister {i s v} (h : badField? s.nreg i.regFields = some v) : Effect i s (s.raise (.fault (.badRegister v)))
  | hlt {s} : Effect .hlt s (s.raise .halt)
  | jmp {s t} : Effect (.jmp t) s (s.advancePc false t).charge
  | jz {s t} : Effect (.jz t) s (s.advancePc false (if s.z = true then t else s.pc + 1)).charge
  | jzR {s t r} (hr : InRange r s.nreg) :
    Effect (.jzR t r) s
      ((s.setFlag (decide (s.reg r = 0))).charge.advancePc false (if s.reg r = 0 then t else s.pc + 1)).charge
  | mov {s rd imm} (hrd : InRange rd s.nreg) : Effect (.mov rd imm) s (s.latchRegister rd imm).advance
  | loadVInput {s rd} {c : Nat} {rest : List Nat} (hrd : InRange rd s.nreg) (hin : s.inq = c :: rest) :
    Effect (.loadV rd 0) s ((s.latchDataAddress 0).charge.popInput.latchRegister rd c).advance
  | loadVEndOfInput {s rd} (hrd : InRange rd s.nreg) (hin : s.inq = []) :
    Effect (.loadV rd 0) s ((s.latchDataAddress 0).charge.raise .endOfInput)
  | loadVCell {s rd a v} (hrd : InRange rd s.nreg) (ha : a ≠ 0) (hv : s.payload? a = some v) :
    Effect (.loadV rd a) s ((s.latchDataAddress a).charge.latchRegister rd v).advance
  | loadVBadAddress {s rd a} (hrd : InRange rd s.nreg) (ha : a ≠ 0) (hbad : ¬ InRange a s.dlen) :
    Effect (.loadV rd a) s ((s.latchDataAddress a).charge.raise (.fault (.badDataAddress a)))
  | loadR {s rd rp v} (hrd : InRange rd s.nreg) (hrp : InRange rp s.nreg) (hv : s.payload? (s.reg rp) = some v) :
    Effect (.loadR rd rp) s ((s.latchDataAddress (s.reg rp)).charge.latchRegister rd v).advance
  | loadRBadAddress {s rd rp} (hrd : InRange rd s.nreg) (hrp : InRange rp s.nreg) (hbad : ¬ InRange (s.reg rp) s.dlen) :
    Effect (.loadR rd rp) s ((s.latchDataAddress (s.reg rp)).charge.raise (.fault (.badDataAddress (s.reg rp))))
  | storeVOutput {s rs} (hrs : InRange rs s.nreg) :
    Effect (.storeV 1 rs) s ((s.latchDataAddress 1).charge.writeOutput (s.reg rs)).advance
  | storeVCell {s a rs} (hrs : InRange rs s.nreg) (ha : a ≠ 1) (hok : InRange a s.dlen) :
    Effect (.storeV a rs) s ((s.latchDataAddress a).charge.setPayload a (s.reg rs)).advance
  | storeVBadAddress {s a rs} (hrs : InRange rs s.nreg) (ha : a ≠ 1) (hbad : ¬ InRange a s.dlen) :
    Effect (.storeV a rs) s ((s.latchDataAddress a).charge.raise (.fault (.badDataAddress a)))
  | storeR {s rp rs} (hrp : InRange rp s.nreg) (hrs : InRange rs s.nreg) (hok : InRange (s.reg rp) s.dlen) :
    Effect (.storeR rp rs) s ((s.latchDataAddress (s.reg rp)).charge.setPayload (s.reg rp) (s.reg rs)).advance
  | storeRBadAddress {s rp rs} (hrp : InRange rp s.nreg) (hrs : InRange rs s.nreg) (hbad : ¬ InRange (s.reg rp) s.dlen) :
    Effect (.storeR rp rs) s ((s.latchDataAddress (s.reg rp)).charge.raise (.fault (.badDataAddress (s.reg rp))))
  | next {s rd rp v} (hrd : InRange rd s.nreg) (hrp : InRange rp s.nreg) (hv : s.payload? (s.reg rp + 1) = some v) :
    Effect (.next rd rp) s
      ((((s.setFlag (flagAfter (s.reg rp + 1) s.z)).latchRegister rp (s.reg rp + 1)).charge.latchDataAddress
        (s.reg rp + 1)).charge.latchRegister rd v).advance
  | nextBadAddress {s rd rp} (hrd : InRange rd s.nreg) (hrp : InRange rp s.nreg) (hbad : ¬ InRange (s.reg rp + 1) s.dlen) :
    Effect (.next rd rp) s
      ((((s.setFlag (flagAfter (s.reg rp + 1) s.z)).latchRegister rp (s.reg rp + 1)).charge.latchDataAddress
        (s.reg rp + 1)).charge.raise (.fault (.badDataAddress (s.reg rp + 1))))
  | cmp {s ra rb} (hra : InRange ra s.nreg) (hrb : InRange rb s.nreg) :
    Effect (.cmp ra rb) s (s.setFlag (decide (s.reg ra = s.reg rb))).advance
  | inc {s rd} (hrd : InRange rd s.nreg) :
    Effect (.inc rd) s ((s.setFlag (flagAfter (s.reg rd + 1) s.z)).latchRegister rd (s.reg rd + 1)).advance
  | addMmr {s md ms rs m} (hrs : InRange rs s.nreg) (hm : s.payload? ms = some m) (hok : InRange md s.dlen) :
    Effect (.addMmr md ms rs) s
      (((((s.latchDataAddress ms).charge.latchBuffer m).charge.latchDataAddress md).charge.setFlag
        (flagAfter (m + s.reg rs) s.z)).setPayload md (m + s.reg rs)).advance
  | addMmrBadSource {s md ms rs} (hrs : InRange rs s.nreg) (hbad : ¬ InRange ms s.dlen) :
    Effect (.addMmr md ms rs) s ((s.latchDataAddress ms).charge.raise (.fault (.badDataAddress ms)))
  | addMmrBadDestination {s md ms rs m} (hrs : InRange rs s.nreg) (hm : s.payload? ms = some m)
      (hbad : ¬ InRange md s.dlen) :
    Effect (.addMmr md ms rs) s
      (((((s.latchDataAddress ms).charge.latchBuffer m).charge.latchDataAddress md).charge.setFlag
        (flagAfter (m + s.reg rs) s.z)).raise (.fault (.badDataAddress md)))
  | modRrv {s rd rs imm} (hrd : InRange rd s.nreg) (hrs : InRange rs s.nreg) (hne : imm ≠ 0) :
    Effect (.modRrv rd rs imm) s
      (((s.latchBuffer (s.reg rs)).charge.setFlag (flagAfter (Int.fmod (s.reg rs) imm) s.z)).latchRegister rd
        (Int.fmod (s.reg rs) imm)).advance
  | modRrvByZero {s rd rs} (hrd : InRange rd s.nreg) (hrs : InRange rs s.nreg) :
    Effect (.modRrv rd rs 0) s ((s.latchBuffer (s.reg rs)).charge.raise (.fault (.divideByZero (s.reg rs))))
  | linear {s rd ri imm} (hrd : InRange rd s.nreg) (hri : InRange ri s.nreg) :
    Effect (.linear rd ri imm) s
      (((s.latchBuffer imm).charge.setFlag (flagAfter (imm * s.reg ri) s.z)).latchRegister rd (imm * s.reg ri)).advance
  | linearCont {s rd ri imm} (hrd : InRange rd s.nreg) (hri : InRange ri s.nreg) :
    Effect (.linearCont rd ri imm) s
      (((((s.latchBuffer imm).charge.setFlag (flagAfter (imm * s.reg ri) s.z)).latchBuffer (imm * s.reg ri)).charge.setFlag
        (flagAfter (s.reg rd + imm * s.reg ri) (flagAfter (imm * s.reg ri) s.z))).latchRegister rd
          (s.reg rd + imm * s.reg ri)).advance
  | number {s args} : Effect (.number args) s (s.invalidOpcode .NUMBER)
  | string {s args} : Effect (.string args) s (s.invalidOpcode .STRING)
  | buffer {s args} : Effect (.buffer args) s (s.invalidOpcode .BUFFER)

/-- A branch writes `pc` by the flag and charges its tick (41_control_flow R133). -/
theorem branch_eq (t : Int) (s : State) : s.branch t = (s.advancePc false (if s.z = true then t else s.pc + 1)).charge := by
  unfold State.branch State.zero
  split <;> rfl

/-- The first bad register field of any instruction ends the run before any signal (30_encoding R78, R85). -/
theorem exec_badField {i : Instr} {s : State} {v : Int} (h : badField? s.nreg i.regFields = some v) :
    exec i s = .next (s.raise (.fault (.badRegister v))) := by
  cases i with
  | hlt | jmp | jz | number | string | buffer => cases h
  | jzR => exact (exec_jzR ..).trans (runSignals_bad h)
  | mov => exact (exec_mov ..).trans (runSignals_bad h)
  | loadV => exact (exec_loadV ..).trans (runSignals_bad h)
  | loadR => exact (exec_loadR ..).trans (runSignals_bad h)
  | storeV => exact (exec_storeV ..).trans (runSignals_bad h)
  | storeR => exact (exec_storeR ..).trans (runSignals_bad h)
  | next => exact (exec_nextInstr ..).trans (runSignals_bad h)
  | cmp => exact (exec_cmp ..).trans (runSignals_bad h)
  | inc => exact (exec_inc ..).trans (runSignals_bad h)
  | addMmr => exact (exec_addMmr ..).trans (runSignals_bad h)
  | modRrv => exact (exec_modRrv ..).trans (runSignals_bad h)
  | linear => exact (exec_linear ..).trans (runSignals_bad h)
  | linearCont => exact (exec_linearCont ..).trans (runSignals_bad h)

/-- One register field in range passes the check. -/
theorem fieldsInRange_one {n : Nat} {a : Int} (ha : InRange a n) : ∀ v ∈ [a], InRange v n := by simpa using ha

/-- Two register fields in range pass the check. -/
theorem fieldsInRange_two {n : Nat} {a b : Int} (ha : InRange a n) (hb : InRange b n) : ∀ v ∈ [a, b], InRange v n := by
  simpa using ⟨ha, hb⟩

/-- A signal that answers hands its answer to the signals after it. -/
theorem bind_of_ok {α β : Type} {x : Except State α} {a : α} (f : α → Except State β) (h : x = .ok a) :
    x >>= f = f a := by
  rw [h]
  rfl

/-- A signal that raises ends the sequence there. -/
theorem bind_of_error {α β : Type} {x : Except State α} {t : State} (f : α → Except State β) (h : x = .error t) :
    x >>= f = .error t := by
  rw [h]
  rfl

/-- `NEXT` up to its access: the increment is latched, so the address is the number the pointer then holds. -/
theorem execNext_eq {s : State} {rd rp : Int} (hrp : InRange rp s.nreg) :
    execNext rd rp s = runSignals [rd, rp] (fun s => do
      let u := (((s.setFlag (flagAfter (s.reg rp + 1) s.z)).latchRegister rp (s.reg rp + 1)).charge.latchDataAddress
        (s.reg rp + 1)).charge
      let v ← u.memRead (s.reg rp + 1)
      return (u.latchRegister rd v).advance) s := by
  have pointer : ((s.setFlag (flagAfter (s.reg rp + 1) s.z)).latchRegister rp (s.reg rp + 1)).reg rp = s.reg rp + 1 :=
    reg_latchRegister_same _ _ hrp
  unfold execNext runSignals
  simp only [alu_add, bind, Except.bind, State.charge_reg, pointer, State.charge_da, State.latchDataAddress_da]

/-- `ADD_MMR` from a source with a cell, up to its write: the flag takes the sum before the destination is checked. -/
theorem execAddMmr_eq {s : State} {md ms rs m : Int} (hm : s.payload? ms = some m) :
    execAddMmr md ms rs s = runSignals [rs] (fun s => do
      let t ← ((((s.latchDataAddress ms).charge.latchBuffer m).charge.latchDataAddress md).charge.setFlag
        (flagAfter (m + s.reg rs) s.z)).memWrite md (m + s.reg rs)
      return t.advance) s := by
  have source : (s.latchDataAddress ms).charge.memRead ms = .ok m := memRead_some hm
  unfold execAddMmr runSignals
  simp only [State.charge_da, State.latchDataAddress_da, source, bind, Except.bind, alu_add]
  rfl

/-- Each form of the relation is what `exec` answers. -/
theorem Effect.exec_eq {i : Instr} {s t : State} (h : Effect i s t) : exec i s = .next t := by
  cases h with
  | badRegister h => exact exec_badField h
  | hlt | jmp | number | string | buffer => rfl
  | jz => exact congrArg _ (branch_eq _ s)
  | jzR hr =>
    refine (exec_jzR ..).trans (runSignals_ok (fieldsInRange_one hr) ?_)
    refine (bind_of_ok _ (alu_cmp ..)).trans (congrArg Except.ok ?_)
    simp [branch_eq]
  | mov hrd => exact (exec_mov ..).trans (runSignals_ok (fieldsInRange_one hrd) rfl)
  | loadVInput hrd hin => exact exec_loadV_inputPort hrd hin
  | loadVEndOfInput hrd hin => exact exec_loadV_endOfInput hrd hin
  | loadVCell hrd ha hv =>
    refine (exec_loadV ..).trans (runSignals_ok (fieldsInRange_one hrd) ?_)
    simp only [loadOperand_address ha]
    exact bind_of_ok _ (memRead_some hv)
  | loadVBadAddress hrd ha hbad =>
    refine (exec_loadV ..).trans (runSignals_raised (fieldsInRange_one hrd) ?_)
    simp only [loadOperand_address ha]
    exact bind_of_error _ (memRead_none hbad)
  | loadR hrd hrp hv =>
    exact (exec_loadR ..).trans (runSignals_ok (fieldsInRange_two hrd hrp) (bind_of_ok _ (memRead_some hv)))
  | loadRBadAddress hrd hrp hbad =>
    exact (exec_loadR ..).trans (runSignals_raised (fieldsInRange_two hrd hrp) (bind_of_error _ (memRead_none hbad)))
  | storeVOutput hrs => exact exec_storeV_outputPort hrs
  | storeVCell hrs ha hok =>
    refine (exec_storeV ..).trans (runSignals_ok (fieldsInRange_one hrs) ?_)
    simp only [storeOperand_address ha]
    exact bind_of_ok _ (memWrite_some _ hok)
  | storeVBadAddress hrs ha hbad =>
    refine (exec_storeV ..).trans (runSignals_raised (fieldsInRange_one hrs) ?_)
    simp only [storeOperand_address ha]
    exact bind_of_error _ (memWrite_none _ hbad)
  | storeR hrp hrs hok =>
    exact (exec_storeR ..).trans (runSignals_ok (fieldsInRange_two hrp hrs) (bind_of_ok _ (memWrite_some _ hok)))
  | storeRBadAddress hrp hrs hbad =>
    exact (exec_storeR ..).trans (runSignals_raised (fieldsInRange_two hrp hrs) (bind_of_error _ (memWrite_none _ hbad)))
  | next hrd hrp hv =>
    exact (execNext_eq hrp).trans (runSignals_ok (fieldsInRange_two hrd hrp) (bind_of_ok _ (memRead_some hv)))
  | nextBadAddress hrd hrp hbad =>
    exact (execNext_eq hrp).trans (runSignals_raised (fieldsInRange_two hrd hrp) (bind_of_error _ (memRead_none hbad)))
  | cmp hra hrb =>
    exact (exec_cmp ..).trans (runSignals_ok (fieldsInRange_two hra hrb) (bind_of_ok _ (alu_cmp ..)))
  | inc hrd => exact (exec_inc ..).trans (runSignals_ok (fieldsInRange_one hrd) rfl)
  | addMmr hrs hm hok =>
    exact (execAddMmr_eq hm).trans (runSignals_ok (fieldsInRange_one hrs) (bind_of_ok _ (memWrite_some _ hok)))
  | addMmrBadSource hrs hbad =>
    exact (exec_addMmr ..).trans (runSignals_raised (fieldsInRange_one hrs) (bind_of_error _ (memRead_none hbad)))
  | addMmrBadDestination hrs hm hbad =>
    exact (execAddMmr_eq hm).trans (runSignals_raised (fieldsInRange_one hrs) (bind_of_error _ (memWrite_none _ hbad)))
  | modRrv hrd hrs hne =>
    exact (exec_modRrv ..).trans (runSignals_ok (fieldsInRange_two hrd hrs) (bind_of_ok _ (alu_mod _ _ hne)))
  | modRrvByZero hrd hrs =>
    exact (exec_modRrv ..).trans (runSignals_raised (fieldsInRange_two hrd hrs) (bind_of_error _ (alu_mod_zero ..)))
  | linear hrd hri => exact (exec_linear ..).trans (runSignals_ok (fieldsInRange_two hrd hri) rfl)
  | linearCont hrd hri => exact (exec_linearCont ..).trans (runSignals_ok (fieldsInRange_two hrd hri) rfl)

/-- Every instruction has one of the forms in every state. -/
theorem exists_effect (i : Instr) (s : State) : ∃ t, Effect i s t := by
  cases hbad : badField? s.nreg i.regFields with
  | some v => exact ⟨_, .badRegister hbad⟩
  | none =>
    have inRange : ∀ v ∈ i.regFields, InRange v s.nreg := by simpa [badField?] using hbad
    have firstField {a : Int} {l : List Int} : a ∈ a :: l := List.mem_cons_self
    have secondField {a b : Int} : b ∈ [a, b] := List.mem_cons_of_mem _ firstField
    cases i with
    | hlt => exact ⟨_, .hlt⟩
    | jmp => exact ⟨_, .jmp⟩
    | jz => exact ⟨_, .jz⟩
    | jzR => exact ⟨_, .jzR (inRange _ firstField)⟩
    | mov => exact ⟨_, .mov (inRange _ firstField)⟩
    | loadV rd a =>
      have hrd := inRange rd firstField
      by_cases ha : a = 0
      · subst ha
        cases hin : s.inq with
        | nil => exact ⟨_, .loadVEndOfInput hrd hin⟩
        | cons c rest => exact ⟨_, .loadVInput hrd hin⟩
      · by_cases hok : InRange a s.dlen
        · obtain ⟨v, hv⟩ := exists_payload hok
          exact ⟨_, .loadVCell hrd ha hv⟩
        · exact ⟨_, .loadVBadAddress hrd ha hok⟩
    | loadR rd rp =>
      have hrd := inRange rd firstField
      have hrp := inRange rp secondField
      by_cases hok : InRange (s.reg rp) s.dlen
      · obtain ⟨v, hv⟩ := exists_payload hok
        exact ⟨_, .loadR hrd hrp hv⟩
      · exact ⟨_, .loadRBadAddress hrd hrp hok⟩
    | storeV a rs =>
      have hrs := inRange rs firstField
      by_cases ha : a = 1
      · subst ha
        exact ⟨_, .storeVOutput hrs⟩
      · by_cases hok : InRange a s.dlen
        · exact ⟨_, .storeVCell hrs ha hok⟩
        · exact ⟨_, .storeVBadAddress hrs ha hok⟩
    | storeR rp rs =>
      have hrp := inRange rp firstField
      have hrs := inRange rs secondField
      by_cases hok : InRange (s.reg rp) s.dlen
      · exact ⟨_, .storeR hrp hrs hok⟩
      · exact ⟨_, .storeRBadAddress hrp hrs hok⟩
    | next rd rp =>
      have hrd := inRange rd firstField
      have hrp := inRange rp secondField
      by_cases hok : InRange (s.reg rp + 1) s.dlen
      · obtain ⟨v, hv⟩ := exists_payload hok
        exact ⟨_, .next hrd hrp hv⟩
      · exact ⟨_, .nextBadAddress hrd hrp hok⟩
    | cmp => exact ⟨_, .cmp (inRange _ firstField) (inRange _ secondField)⟩
    | inc => exact ⟨_, .inc (inRange _ firstField)⟩
    | addMmr md ms rs =>
      have hrs := inRange rs firstField
      by_cases hsrc : InRange ms s.dlen
      · obtain ⟨m, hm⟩ := exists_payload hsrc
        by_cases hok : InRange md s.dlen
        · exact ⟨_, .addMmr hrs hm hok⟩
        · exact ⟨_, .addMmrBadDestination hrs hm hok⟩
      · exact ⟨_, .addMmrBadSource hrs hsrc⟩
    | modRrv rd rs imm =>
      have hrd := inRange rd firstField
      have hrs := inRange rs secondField
      by_cases himm : imm = 0
      · subst himm
        exact ⟨_, .modRrvByZero hrd hrs⟩
      · exact ⟨_, .modRrv hrd hrs himm⟩
    | linear => exact ⟨_, .linear (inRange _ firstField) (inRange _ secondField)⟩
    | linearCont =>
      exact ⟨_, .linearCont (inRange _ firstField) (inRange _ secondField)⟩
    | number => exact ⟨_, .number⟩
    | string => exact ⟨_, .string⟩
    | buffer => exact ⟨_, .buffer⟩

/-- The relation is `exec`: every claim about an instruction is a claim about its forms. -/
theorem exec_iff_effect {i : Instr} {s t : State} : exec i s = .next t ↔ Effect i s t := by
  refine ⟨fun h => ?_, Effect.exec_eq⟩
  obtain ⟨u, hu⟩ := exists_effect i s
  obtain rfl := Host.Outcome.next.inj (hu.exec_eq.symm.trans h)
  exact hu

end Sys2Proof.Machine

/-! PROOFS. The step as a whole, and what it keeps whatever the instruction (10_state, 20_memory section 1). -/

namespace Sys2Proof.Machine

/-- A running block always has a next state (60_exceptions R210; log 1). -/
theorem step_answers_next {s : State} (h : s.status = .running) : ∃ t, step s = .next t := by
  cases hr : s.record? with
  | none => exact ⟨_, step_badPC h hr⟩
  | some r =>
    cases hd : decode r with
    | error e => exact ⟨_, step_rejected h hr hd⟩
    | ok i =>
      obtain ⟨t, ht⟩ := exec_answers_next s i
      exact ⟨t, (step_exec h hr hd).trans ht⟩

/-- Settles O7: the fetch, the decoder and every instruction answer a next state. -/
theorem blockStepsExactlyWhileRunning : Obligations.BlockStepsExactlyWhileRunning := by
  unfold Obligations.BlockStepsExactlyWhileRunning
  exact fun s => ⟨step_answers_next, step_ended⟩

/-! The shape -/

/-- A register write keeps the shape: the register file keeps its length. -/
theorem shape_latchRegister (r v : Int) (s : State) : (s.latchRegister r v).shape = s.shape := by
  simp [State.shape]

/-- A store's write and its final advance keep the shape: every cell keeps its label. -/
theorem shape_advance_setPayload (a v : Int) (s : State) : (s.setPayload a v).advance.shape = s.shape := by
  simp [State.shape, Memory.labels_write]

/-- No instruction changes the shape: only register and data writes touch what it is read from. -/
theorem Effect.shape_eq {i : Instr} {s t : State} (h : Effect i s t) : t.shape = s.shape := by
  cases h with
  | mov | loadVInput | loadVCell | loadR | inc | modRrv | linear | linearCont => exact shape_latchRegister ..
  | nextBadAddress => exact shape_latchRegister ..
  | next => exact (shape_latchRegister ..).trans (shape_latchRegister ..)
  | storeVCell | storeR | addMmr => exact (shape_advance_setPayload ..).trans rfl
  | _ => rfl

/-- No instruction writes program memory (20_memory R68). -/
theorem Effect.pmem_eq {i : Instr} {s t : State} (h : Effect i s t) : t.pmem = s.pmem :=
  congrArg Shape.pmem h.shape_eq

/-- No instruction changes the number of registers (20_memory R53). -/
theorem Effect.nreg_eq {i : Instr} {s t : State} (h : Effect i s t) : t.nreg = s.nreg :=
  congrArg Shape.nreg h.shape_eq

/-- Settles O47: a fault at the fetch or at decode changes the status alone, and an instruction keeps the shape. -/
theorem stepKeepsTheShape : Obligations.StepKeepsTheShape := by
  unfold Obligations.StepKeepsTheShape
  rintro _ s t rfl h
  obtain ⟨-, ⟨-, rfl⟩ | ⟨-, -, -, -, rfl⟩ | ⟨-, i, -, -, hexec⟩⟩ := step_cases h
  · rfl
  · rfl
  · exact (exec_iff_effect.mp hexec).shape_eq

/-! Simulation of one state by another -/

/-- Where two states fetch the same record, raise alike and have matching effects of every instruction, their steps
match. -/
theorem step_simulation {f g : State → State} {s u : State} (hstatus : u.status = s.status)
    (hrecord : u.record? = s.record?) (hraise : ∀ c, f (u.raise c) = g (s.raise c)) (hpc : u.pc = s.pc)
    (heffect : ∀ i t, Effect i s t → ∃ v, Effect i u v ∧ f v = g t) : mapNext f (step u) = mapNext g (step s) := by
  by_cases hs : s.status = .running
  · have hu := hstatus.trans hs
    cases hr : s.record? with
    | none =>
      rw [step_badPC hs hr, step_badPC hu (hrecord.trans hr), hpc]
      exact congrArg _ (hraise _)
    | some r =>
      cases hd : decode r with
      | error e =>
        rw [step_rejected hs hr hd, step_rejected hu (hrecord.trans hr) hd]
        exact congrArg _ (hraise _)
      | ok i =>
        obtain ⟨t, ht⟩ := exists_effect i s
        obtain ⟨v, hv, hmatch⟩ := heffect i t ht
        rw [step_exec hs hr hd, step_exec hu (hrecord.trans hr) hd, ht.exec_eq, hv.exec_eq]
        exact congrArg _ hmatch
  · rw [step_ended hs, step_ended (hstatus ▸ hs), hstatus]
    rfl

/-! The latches -/

/-- No form of an instruction's effect reads a latch it has not written itself, so the same form holds with the latches
at zero (10_state R37). -/
theorem Effect.noLatches {i : Instr} {s t : State} (h : Effect i s t) :
    ∃ v, Effect i s.noLatches v ∧ v.noLatches = t.noLatches := by
  cases h with
  | badRegister h => exact ⟨_, .badRegister h, rfl⟩
  | hlt => exact ⟨_, .hlt, rfl⟩
  | jmp => exact ⟨_, .jmp, rfl⟩
  | jz => exact ⟨_, .jz, rfl⟩
  | jzR hr => exact ⟨_, .jzR hr, rfl⟩
  | mov hrd => exact ⟨_, .mov hrd, rfl⟩
  | loadVInput hrd hin => exact ⟨_, .loadVInput hrd hin, rfl⟩
  | loadVEndOfInput hrd hin => exact ⟨_, .loadVEndOfInput hrd hin, rfl⟩
  | loadVCell hrd ha hv => exact ⟨_, .loadVCell hrd ha hv, rfl⟩
  | loadVBadAddress hrd ha hbad => exact ⟨_, .loadVBadAddress hrd ha hbad, rfl⟩
  | loadR hrd hrp hv => exact ⟨_, .loadR hrd hrp hv, rfl⟩
  | loadRBadAddress hrd hrp hbad => exact ⟨_, .loadRBadAddress hrd hrp hbad, rfl⟩
  | storeVOutput hrs => exact ⟨_, .storeVOutput hrs, rfl⟩
  | storeVCell hrs ha hok => exact ⟨_, .storeVCell hrs ha hok, rfl⟩
  | storeVBadAddress hrs ha hbad => exact ⟨_, .storeVBadAddress hrs ha hbad, rfl⟩
  | storeR hrp hrs hok => exact ⟨_, .storeR hrp hrs hok, rfl⟩
  | storeRBadAddress hrp hrs hbad => exact ⟨_, .storeRBadAddress hrp hrs hbad, rfl⟩
  | next hrd hrp hv => exact ⟨_, .next hrd hrp hv, rfl⟩
  | nextBadAddress hrd hrp hbad => exact ⟨_, .nextBadAddress hrd hrp hbad, rfl⟩
  | cmp hra hrb => exact ⟨_, .cmp hra hrb, rfl⟩
  | inc hrd => exact ⟨_, .inc hrd, rfl⟩
  | addMmr hrs hm hok => exact ⟨_, .addMmr hrs hm hok, rfl⟩
  | addMmrBadSource hrs hbad => exact ⟨_, .addMmrBadSource hrs hbad, rfl⟩
  | addMmrBadDestination hrs hm hbad => exact ⟨_, .addMmrBadDestination hrs hm hbad, rfl⟩
  | modRrv hrd hrs hne => exact ⟨_, .modRrv hrd hrs hne, rfl⟩
  | modRrvByZero hrd hrs => exact ⟨_, .modRrvByZero hrd hrs, rfl⟩
  | linear hrd hri => exact ⟨_, .linear hrd hri, rfl⟩
  | linearCont hrd hri => exact ⟨_, .linearCont hrd hri, rfl⟩
  | number => exact ⟨_, .number, rfl⟩
  | string => exact ⟨_, .string, rfl⟩
  | buffer => exact ⟨_, .buffer, rfl⟩

/-- A step from a state and from the same state with the latches at zero differ in the latches alone. -/
theorem step_noLatches (s : State) : mapNext State.noLatches (step s.noLatches) = mapNext State.noLatches (step s) :=
  step_simulation rfl rfl (fun _ => rfl) rfl fun _ _ => Effect.noLatches

/-- A run of one step more, from a step that answers. -/
theorem run_of_next {s t : State} (n : Nat) (h : step s = .next t) : core.run (n + 1) s = core.run n t := by
  have hcore : core.step s = .next t := h
  simp only [Host.Core.run, hcore]

/-- A run from a state whose run has ended stops at once. -/
theorem run_of_ended {s : State} (n : Nat) (h : s.status ≠ .running) :
    core.run (n + 1) s = .fault (.notRunning s.status) := by
  have hcore : core.step s = .fault (Fault.notRunning s.status) := step_ended h
  simp only [Host.Core.run, hcore]

/-- Runs from states that differ in the latches alone differ in the latches alone. -/
theorem run_noLatches (n : Nat) {s u : State} (h : u.noLatches = s.noLatches) :
    mapNext State.noLatches (core.run n u) = mapNext State.noLatches (core.run n s) := by
  induction n generalizing s u with
  | zero => exact congrArg Host.Outcome.next h
  | succ n ih =>
    have hstatus : u.status = s.status := (congrArg State.status h :)
    by_cases hs : s.status = .running
    · obtain ⟨t, ht⟩ := step_answers_next hs
      obtain ⟨v, hv⟩ := step_answers_next (hstatus.trans hs)
      have steps : mapNext State.noLatches (step u) = mapNext State.noLatches (step s) := by
        rw [← step_noLatches u, h, step_noLatches s]
      rw [hv, ht] at steps
      rw [run_of_next n hv, run_of_next n ht]
      exact ih (Host.Outcome.next.inj steps)
    · rw [run_of_ended n hs, run_of_ended n (hstatus ▸ hs), hstatus]

/-- Settles O53: both start states are the same with the latches at zero, and every run keeps that. -/
theorem latchesAreUnobservable : Obligations.LatchesAreUnobservable := by
  unfold Obligations.LatchesAreUnobservable
  exact fun n _ _ _ => run_noLatches n rfl

/-! The cell labels -/

section
variable (f : Nat → Int × DataTag) (s : State)

/-- Relabelling keeps the number of cells. -/
theorem relabel_dlen : (s.relabel f).dlen = s.dlen := by simp [State.dlen, State.relabel]

/-- Relabelling keeps every payload. -/
theorem relabel_payload? (a : Int) : (s.relabel f).payload? a = s.payload? a := by
  simp only [State.payload?, State.cell?, relabel_dlen]
  split
  · simp [State.relabel, Function.comp_def]
  · rfl

/-- Relabelling and writing a payload, in either order. -/
theorem relabel_setPayload (a v : Int) : (s.setPayload a v).relabel f = (s.relabel f).setPayload a v := by
  have cells : (Memory.write a.toNat v s.dmem).mapIdx (fun k c => (⟨(f k).1, (f k).2, c.payload⟩ : DataCell)) =
      Memory.write a.toNat v (s.dmem.mapIdx fun k c => ⟨(f k).1, (f k).2, c.payload⟩) := by
    apply List.ext_getElem? fun k => ?_
    simp only [Memory.write, List.getElem?_mapIdx, List.getElem?_modify]
    split <;> cases s.dmem[k]? <;> rfl
  simp [State.relabel, State.setPayload, cells]

end

/-- Each form of an instruction's effect is the same form on relabelled cells. -/
theorem Effect.relabel (f : Nat → Int × DataTag) {i : Instr} {s t : State} (h : Effect i s t) :
    Effect i (s.relabel f) (t.relabel f) := by
  have hcell {a v : Int} (hv : s.payload? a = some v) : (s.relabel f).payload? a = some v :=
    (relabel_payload? f s a).trans hv
  have hin {a : Int} (hok : InRange a s.dlen) : InRange a (s.relabel f).dlen := by rwa [relabel_dlen]
  have hout {a : Int} (hbad : ¬ InRange a s.dlen) : ¬ InRange a (s.relabel f).dlen := by rwa [relabel_dlen]
  have hwrite (u : State) (a v : Int) : (u.setPayload a v).advance.relabel f = ((u.relabel f).setPayload a v).advance :=
    congrArg State.advance (relabel_setPayload f u a v)
  cases h with
  | badRegister h => exact .badRegister h
  | hlt => exact .hlt
  | jmp => exact .jmp
  | jz => exact .jz
  | jzR hr => exact .jzR hr
  | mov hrd => exact .mov hrd
  | loadVInput hrd hin => exact .loadVInput hrd hin
  | loadVEndOfInput hrd hin => exact .loadVEndOfInput hrd hin
  | loadVCell hrd ha hv => exact .loadVCell hrd ha (hcell hv)
  | loadVBadAddress hrd ha hbad => exact .loadVBadAddress hrd ha (hout hbad)
  | loadR hrd hrp hv => exact .loadR hrd hrp (hcell hv)
  | loadRBadAddress hrd hrp hbad => exact .loadRBadAddress hrd hrp (hout hbad)
  | storeVOutput hrs => exact .storeVOutput hrs
  | storeVCell hrs ha hok => rw [hwrite]; exact .storeVCell hrs ha (hin hok)
  | storeVBadAddress hrs ha hbad => exact .storeVBadAddress hrs ha (hout hbad)
  | storeR hrp hrs hok => rw [hwrite]; exact .storeR hrp hrs (hin hok)
  | storeRBadAddress hrp hrs hbad => exact .storeRBadAddress hrp hrs (hout hbad)
  | next hrd hrp hv => exact .next hrd hrp (hcell hv)
  | nextBadAddress hrd hrp hbad => exact .nextBadAddress hrd hrp (hout hbad)
  | cmp hra hrb => exact .cmp hra hrb
  | inc hrd => exact .inc hrd
  | addMmr hrs hm hok => rw [hwrite]; exact .addMmr hrs (hcell hm) (hin hok)
  | addMmrBadSource hrs hbad => exact .addMmrBadSource hrs (hout hbad)
  | addMmrBadDestination hrs hm hbad => exact .addMmrBadDestination hrs (hcell hm) (hout hbad)
  | modRrv hrd hrs hne => exact .modRrv hrd hrs hne
  | modRrvByZero hrd hrs => exact .modRrvByZero hrd hrs
  | linear hrd hri => exact .linear hrd hri
  | linearCont hrd hri => exact .linearCont hrd hri
  | number => exact .number
  | string => exact .string
  | buffer => exact .buffer

/-- Settles O54: the relabelled state fetches the same record and has the relabelled effect of every instruction. -/
theorem cellLabelsAreNeverConsulted : Obligations.CellLabelsAreNeverConsulted := by
  unfold Obligations.CellLabelsAreNeverConsulted
  intro f s
  have simulated : mapNext id (step (s.relabel f)) = mapNext (State.relabel f) (step s) :=
    step_simulation rfl rfl (fun _ => rfl) rfl fun _ t ht => ⟨t.relabel f, ht.relabel f, rfl⟩
  rw [← simulated]
  cases step (s.relabel f) <;> rfl

end Sys2Proof.Machine

/-! PROOFS. Frames: which part of the state each instruction can write (10_state, 40_alu_datapath R119). -/

namespace Sys2Proof

/-- The instruction calls the ALU, the only writer of the flag (40_alu_datapath R100, R101). -/
def Instr.callsAlu : Instr → Bool
  | .jzR .. | .next .. | .cmp .. | .inc _ | .addMmr .. | .modRrv .. | .linear .. | .linearCont .. => true
  | _ => false

/-- The instruction latches the buffer register (40_alu_datapath R108). -/
def Instr.latchesBuffer : Instr → Bool
  | .addMmr .. | .modRrv .. | .linear .. | .linearCont .. => true
  | _ => false

/-- The instruction latches a data address (40_alu_datapath R107). -/
def Instr.latchesAddress : Instr → Bool
  | .loadV .. | .loadR .. | .storeV .. | .storeR .. | .next .. | .addMmr .. => true
  | _ => false

/-- The address of the data cell the instruction stores to, if it stores to one (20_memory R56, R63). -/
def Instr.storeAddress? (s : Machine.State) : Instr → Option Int
  | .storeV a _ => if a = 1 then none else some a
  | .storeR rp _ => some (s.reg rp)
  | .addMmr md _ _ => some md
  | _ => none

end Sys2Proof

namespace Sys2Proof.Machine

section
variable {i : Instr} {s t : State} (h : Effect i s t)
include h

/-- A register that is no destination keeps its value (10_state R22). -/
theorem Effect.reg_eq {q : Int} (hq : InRange q s.nreg) (hne : q ∉ i.destinations) : t.reg q = s.reg q := by
  cases h with
  | mov hrd | loadVInput hrd | loadVCell hrd | loadR hrd | inc hrd | modRrv hrd | linear hrd | linearCont hrd =>
    exact reg_latchRegister_other _ _ hrd hq (List.ne_of_not_mem_cons hne)
  | @next _ rd rp v hrd hrp =>
    have hrd_ne : q ≠ rd := List.ne_of_not_mem_cons hne
    have hrp_ne : q ≠ rp := List.ne_of_not_mem_cons (List.not_mem_of_not_mem_cons hne)
    have size := (nreg_latchRegister s rp (s.reg rp + 1)).symm
    calc ((s.latchRegister rp (s.reg rp + 1)).latchRegister rd v).reg q
      _ = (s.latchRegister rp (s.reg rp + 1)).reg q := reg_latchRegister_other _ _ (size ▸ hrd) (size ▸ hq) hrd_ne
      _ = s.reg q := reg_latchRegister_other s _ hrp hq hrp_ne
  | nextBadAddress hrd hrp =>
    exact reg_latchRegister_other _ _ hrp hq (List.ne_of_not_mem_cons (List.not_mem_of_not_mem_cons hne))
  | _ => rfl

/-- An instruction without a destination keeps the register file. -/
theorem Effect.x_eq (hi : i.destinations = []) : t.x = s.x := by
  cases h with
  | mov | loadVInput | loadVCell | loadR | inc | modRrv | linear | linearCont | next | nextBadAddress => cases hi
  | _ => rfl

/-- A cell that is not the one stored to keeps its content. -/
theorem Effect.cell?_eq {a : Int} (ha : i.storeAddress? s ≠ some a) : t.cell? a = s.cell? a := by
  cases h with
  | storeVCell hrs h1 hok =>
    have other : a ≠ _ := fun heq => ha (by rw [heq]; exact if_neg h1)
    exact (wroteCell_of_write hok rfl).2 a other
  | storeR hrp hrs hok => exact (wroteCell_of_write hok rfl).2 a fun heq => ha (congrArg some heq.symm)
  | addMmr hrs hm hok => exact (wroteCell_of_write hok rfl).2 a fun heq => ha (congrArg some heq.symm)
  | _ => rfl

/-- An instruction without an ALU call keeps the flag (10_state R26). -/
theorem Effect.z_eq (hi : i.callsAlu = false) : t.z = s.z := by
  cases h with
  | jzR | next | nextBadAddress | cmp | inc | addMmr | addMmrBadDestination | modRrv | linear | linearCont => cases hi
  | _ => rfl

/-- An instruction that latches no buffer keeps `br` (10_state R29). -/
theorem Effect.br_eq (hi : i.latchesBuffer = false) : t.br = s.br := by
  cases h with
  | addMmr | addMmrBadDestination | modRrv | modRrvByZero | linear | linearCont => cases hi
  | _ => rfl

/-- An instruction that latches no address keeps `da` (10_state R28). -/
theorem Effect.da_eq (hi : i.latchesAddress = false) : t.da = s.da := by
  cases h with
  | badRegister | hlt | jmp | jz | jzR | mov | cmp | inc | modRrv | modRrvByZero | linear | linearCont | number | string
  | buffer => rfl
  | _ => cases hi

/-- Only the output port's store changes the output (10_state R33). -/
theorem Effect.outq_eq (hi : ∀ rs, i = .storeV 1 rs → ¬ InRange rs s.nreg) : t.outq = s.outq := by
  cases h with
  | storeVOutput hrs => exact absurd hrs (hi _ rfl)
  | _ => rfl

/-- Only the input port's load changes the input (10_state R32). -/
theorem Effect.inq_eq (hi : ∀ rd, i = .loadV rd 0 → ¬ InRange rd s.nreg) : t.inq = s.inq := by
  cases h with
  | loadVInput hrd => exact absurd hrd (hi _ rfl)
  | _ => rfl

end

/-- Settles O50: the registers `Effect.reg_eq` speaks of. -/
theorem onlyDestinationsAreWritten : Obligations.OnlyDestinationsAreWritten := by
  unfold Obligations.OnlyDestinationsAreWritten
  exact fun i s t q h hq hne => (exec_iff_effect.mp h).reg_eq hq hne

/-- Settles O51: an instruction whose flag changed calls the ALU, and those are the eight. -/
theorem onlyAluInstructionsWriteTheFlag : Obligations.OnlyAluInstructionsWriteTheFlag := by
  unfold Obligations.OnlyAluInstructionsWriteTheFlag
  intro i s t h hz
  have calls : i.callsAlu = true := by
    by_contra hno
    exact hz ((exec_iff_effect.mp h).z_eq (Bool.eq_false_iff.mpr hno))
  cases i with
  | jzR a b | next a b | cmp a b => exact .inl ⟨a, b, by simp⟩
  | inc a => exact .inl ⟨a, 0, by simp⟩
  | addMmr a b c | modRrv a b c | linear a b c | linearCont a b c => exact .inr ⟨a, b, c, by simp⟩
  | _ => cases calls

/-- Settles O49: the two port forms write their queue, and every other form neither. -/
theorem queuesChangeOnlyAtTheirPorts : Obligations.QueuesChangeOnlyAtTheirPorts := by
  unfold Obligations.QueuesChangeOnlyAtTheirPorts
  intro i s t h
  have effect := exec_iff_effect.mp h
  refine ⟨?_, effect.outq_eq, ?_, effect.inq_eq⟩
  · rintro rs rfl hrs
    rw [exec_storeV_outputPort hrs] at h
    obtain rfl := Host.Outcome.next.inj h
    rfl
  · rintro rd rfl hrd
    cases hin : s.inq with
    | nil =>
      rw [exec_loadV_endOfInput hrd hin] at h
      obtain rfl := Host.Outcome.next.inj h
      exact hin
    | cons c rest =>
      rw [exec_loadV_inputPort hrd hin] at h
      obtain rfl := Host.Outcome.next.inj h
      exact congrArg List.tail hin

/-- Settles O38: the four control-flow instructions have no destination, no store and no latch. -/
theorem controlFlowFrame : Obligations.ControlFlowFrame := by
  unfold Obligations.ControlFlowFrame
  intro i s t hi h
  have effect := exec_iff_effect.mp h
  cases i with
  | hlt | jmp | jz =>
    exact ⟨effect.x_eq rfl, fun _ => effect.cell?_eq nofun, effect.pmem_eq, effect.da_eq rfl, effect.br_eq rfl,
      effect.inq_eq nofun, effect.outq_eq nofun, fun _ => effect.z_eq rfl⟩
  | jzR =>
    exact ⟨effect.x_eq rfl, fun _ => effect.cell?_eq nofun, effect.pmem_eq, effect.da_eq rfl, effect.br_eq rfl,
      effect.inq_eq nofun, effect.outq_eq nofun, fun hne => absurd rfl (hne _ _)⟩
  | _ => cases hi

/-- Settles O39: the five have one destination and touch neither memory nor a queue. -/
theorem registerInstructionFrame : Obligations.RegisterInstructionFrame := by
  unfold Obligations.RegisterInstructionFrame
  intro i s t rd p imm hi h
  have effect := exec_iff_effect.mp h
  have one {q : Int} (hne : q ≠ rd) : q ∉ [rd] := mt List.mem_singleton.mp hne
  obtain rfl | rfl | rfl | rfl | rfl := hi
  · exact ⟨fun _ hq hne => effect.reg_eq hq (one hne), fun _ => effect.cell?_eq nofun, effect.pmem_eq, effect.da_eq rfl,
      effect.inq_eq nofun, effect.outq_eq nofun, fun _ => effect.br_eq rfl, fun _ => effect.z_eq rfl⟩
  · exact ⟨fun _ hq hne => effect.reg_eq hq (one hne), fun _ => effect.cell?_eq nofun, effect.pmem_eq, effect.da_eq rfl,
      effect.inq_eq nofun, effect.outq_eq nofun, fun _ => effect.br_eq rfl, nofun⟩
  all_goals
    exact ⟨fun _ hq hne => effect.reg_eq hq (one hne), fun _ => effect.cell?_eq nofun, effect.pmem_eq, effect.da_eq rfl,
      effect.inq_eq nofun, effect.outq_eq nofun, nofun, nofun⟩

/-- Settles O40: the loads have one destination, and no store, ALU call or buffer latch. -/
theorem loadFrame : Obligations.LoadFrame := by
  unfold Obligations.LoadFrame
  intro i s t rd a hi h
  have effect := exec_iff_effect.mp h
  have one {q : Int} (hne : q ≠ rd) : q ∉ [rd] := mt List.mem_singleton.mp hne
  obtain rfl | rfl := hi
  · refine ⟨fun _ hq hne => effect.reg_eq hq (one hne), fun _ => effect.cell?_eq nofun, effect.pmem_eq, effect.z_eq rfl,
      effect.br_eq rfl, effect.outq_eq nofun, fun hport => effect.inq_eq fun _ heq => ?_⟩
    rcases hport with hload | ha
    · cases hload
    · exact absurd (Instr.loadV.inj heq).2 ha
  · exact ⟨fun _ hq hne => effect.reg_eq hq (one hne), fun _ => effect.cell?_eq nofun, effect.pmem_eq, effect.z_eq rfl,
      effect.br_eq rfl, effect.outq_eq nofun, fun _ => effect.inq_eq nofun⟩

/-- Settles O41: `NEXT` has two destinations, and no store, port or buffer latch. -/
theorem nextFrame : Obligations.NextFrame := by
  unfold Obligations.NextFrame
  intro s t rd rp h
  have effect := exec_iff_effect.mp h
  refine ⟨fun q hq hrd hrp => effect.reg_eq hq ?_, fun _ => effect.cell?_eq nofun, effect.pmem_eq, effect.br_eq rfl,
    effect.inq_eq nofun, effect.outq_eq nofun⟩
  simpa [Instr.destinations] using ⟨hrd, hrp⟩

/-- Settles O42: the three have no destination, and `storeAddress?` names the cell they store to. -/
theorem storeFrame : Obligations.StoreFrame := by
  unfold Obligations.StoreFrame
  intro i s t p r ms hi h
  have effect := exec_iff_effect.mp h
  obtain rfl | rfl | rfl := hi
  · refine ⟨effect.x_eq rfl, effect.pmem_eq, effect.inq_eq nofun, fun a ha => effect.cell?_eq ?_, ?_, ?_, ?_⟩
    · rw [if_neg nofun] at ha
      intro heq
      obtain ⟨-, hp⟩ := (Option.ite_none_left_eq_some (p := p = 1)).mp heq
      exact ha (Option.some.inj hp).symm
    · intro hport a
      obtain ⟨rfl, -⟩ := Instr.storeV.inj hport
      exact effect.cell?_eq nofun
    · exact fun hne => effect.outq_eq fun _ heq => absurd (by cases heq; rfl) hne
    · exact fun _ => ⟨effect.z_eq rfl, effect.br_eq rfl⟩
  · refine ⟨effect.x_eq rfl, effect.pmem_eq, effect.inq_eq nofun, fun a ha => effect.cell?_eq ?_, nofun, ?_, ?_⟩
    · rw [if_pos rfl] at ha
      exact fun heq => ha (Option.some.inj heq).symm
    · exact fun _ => effect.outq_eq nofun
    · exact fun _ => ⟨effect.z_eq rfl, effect.br_eq rfl⟩
  · refine ⟨effect.x_eq rfl, effect.pmem_eq, effect.inq_eq nofun, fun a ha => effect.cell?_eq ?_, nofun, ?_, ?_⟩
    · rw [if_neg nofun] at ha
      exact fun heq => ha (Option.some.inj heq).symm
    · exact fun _ => effect.outq_eq nofun
    · exact fun hne => absurd rfl hne

/-- Settles O43: the whole state after each form of `CMP` and of the data tags. -/
theorem compareAndDataTagFrame : Obligations.CompareAndDataTagFrame := by
  unfold Obligations.CompareAndDataTagFrame
  intro i s t h
  have effect := exec_iff_effect.mp h
  refine ⟨?_, fun htag => ?_⟩
  · rintro ra rb rfl
    cases effect <;> rfl
  · cases effect with
    | badRegister | number | string | buffer => rfl
    | _ => exact absurd rfl htag

end Sys2Proof.Machine

/-! PROOFS. How a step completes or ends the run (40_alu_datapath section 3, 60_exceptions). -/

namespace Sys2Proof.Machine

/-- The instruction ran to its end: its whole tick cost is charged and, outside control flow, `pc` is the next index
(40_alu_datapath R118, R121). -/
structure Completed (i : Instr) (s t : State) : Prop where
  status : t.status = s.status
  tick   : t.tick = s.tick + i.ticks
  cost   : 0 < i.ticks
  pc     : i.isControlFlow = false → t.pc = s.pc + 1

/-- The run ended before the final advance, with both memories and both queues as they were (decision D27). -/
structure Ended (s t : State) : Prop where
  status  : t.status ≠ .running
  pc      : t.pc = s.pc
  dmem    : t.dmem = s.dmem
  pmem    : t.pmem = s.pmem
  inq     : t.inq = s.inq
  outq    : t.outq = s.outq
  tick_ge : s.tick ≤ t.tick
  tick_le : t.tick ≤ s.tick + 3

/-- A condition leaves no status Running (60_exceptions R210). -/
theorem Condition.status_ne_running (c : Condition) : c.status ≠ .running := by
  cases c <;> nofun

/-- A condition raised with at most three ticks charged and neither `pc`, memories nor queues written ends the run. -/
theorem ended_raise {s u : State} (c : Condition) (hpc : u.pc = s.pc) (hdmem : u.dmem = s.dmem) (hpmem : u.pmem = s.pmem)
    (hinq : u.inq = s.inq) (houtq : u.outq = s.outq) {n : Nat} (htick : u.tick = s.tick + n) (hn : n ≤ 3) :
    Ended s (u.raise c) where
  status  := c.status_ne_running
  pc      := hpc
  dmem    := hdmem
  pmem    := hpmem
  inq     := hinq
  outq    := houtq
  tick_ge := by rw [State.raise_tick]; omega
  tick_le := by rw [State.raise_tick]; omega

/-- Every form of an instruction's effect either completes it or ends the run. -/
theorem Effect.completed_or_ended {i : Instr} {s t : State} (h : Effect i s t) : Completed i s t ∨ Ended s t := by
  cases h with
  | jmp | jz | jzR => exact .inl ⟨rfl, rfl, Nat.succ_pos _, nofun⟩
  | mov | loadVInput | loadVCell | loadR | storeVOutput | storeVCell | storeR | next | cmp | inc | addMmr | modRrv | linear
  | linearCont => exact .inl ⟨rfl, rfl, Nat.succ_pos _, fun _ => rfl⟩
  | badRegister | hlt | number | string | buffer => exact .inr (ended_raise (n := 0) _ rfl rfl rfl rfl rfl rfl (by decide))
  | loadVEndOfInput | loadVBadAddress | loadRBadAddress | storeVBadAddress | storeRBadAddress | addMmrBadSource
  | modRrvByZero => exact .inr (ended_raise (n := 1) _ rfl rfl rfl rfl rfl rfl (by decide))
  | nextBadAddress => exact .inr (ended_raise (n := 2) _ rfl rfl rfl rfl rfl rfl (by decide))
  | addMmrBadDestination => exact .inr (ended_raise (n := 3) _ rfl rfl rfl rfl rfl rfl (by decide))

/-- A step completes an instruction or ends the run. -/
theorem step_completed_or_ended {s t : State} (h : step s = .next t) : (∃ i, Completed i s t) ∨ Ended s t := by
  obtain ⟨-, ⟨-, rfl⟩ | ⟨-, -, -, -, rfl⟩ | ⟨-, i, -, -, hexec⟩⟩ := step_cases h
  · exact .inr (ended_raise (n := 0) _ rfl rfl rfl rfl rfl rfl (by decide))
  · exact .inr (ended_raise (n := 0) _ rfl rfl rfl rfl rfl rfl (by decide))
  · exact (exec_iff_effect.mp hexec).completed_or_ended.imp_left fun hi => ⟨i, hi⟩

/-- No instruction costs more than four ticks (40_alu_datapath R121). -/
theorem ticks_le_four (i : Instr) : i.ticks ≤ 4 := by
  cases i <;> simp [Instr.ticks]

/-- Settles O44: a completed form charges its whole cost, and `HLT` has none to charge. -/
theorem completedInstructionChargesItsTicks : Obligations.CompletedInstructionChargesItsTicks := by
  unfold Obligations.CompletedInstructionChargesItsTicks
  intro i s t _ h
  rcases (exec_iff_effect.mp h).completed_or_ended with done | ended
  · exact ⟨fun _ => done.tick, fun _ => done.pc⟩
  · refine ⟨fun hcase => ?_, fun hrun => absurd hrun ended.status⟩
    rcases hcase with hrun | rfl
    · exact absurd hrun ended.status
    · obtain rfl := Host.Outcome.next.inj h
      rfl

/-- Settles O45: a step with a terminal status has completed no instruction, since a completed one keeps status Running. -/
theorem endingStepKeepsPcMemoriesAndQueues : Obligations.EndingStepKeepsPcMemoriesAndQueues := by
  unfold Obligations.EndingStepKeepsPcMemoriesAndQueues
  intro s t h hended
  obtain ⟨hrunning, -⟩ := step_cases h
  rcases step_completed_or_ended h with ⟨_, done⟩ | ended
  · exact absurd (done.status.trans hrunning) hended
  · exact ⟨ended.pc, ended.dmem, ended.pmem, ended.inq, ended.outq, ended.tick_ge, ended.tick_le⟩

/-- Settles O46: a completed instruction costs one to four ticks, and an ended one has charged at most three. -/
theorem tickNeverDecreases : Obligations.TickNeverDecreases := by
  unfold Obligations.TickNeverDecreases
  intro s t h
  rcases step_completed_or_ended h with ⟨i, done⟩ | ended
  · have := done.tick
    have := done.cost
    have := ticks_le_four i
    exact ⟨by omega, by omega, fun _ => by omega⟩
  · have := ended.tick_ge
    have := ended.tick_le
    exact ⟨by omega, by omega, fun hrun => absurd hrun ended.status⟩

/-- The status an instruction leaves: the one before, or a normal end at its one cause, or a fault (60_exceptions R211 to
R213). -/
theorem Effect.status_cases {i : Instr} {s t : State} (h : Effect i s t) :
    t.status = s.status ∨ (t.status = .halted ∧ i = .hlt) ∨
    (t.status = .endOfInput ∧ s.inq = [] ∧ ∃ rd, i = .loadV rd 0) ∨ ∃ r, t.status = .fault r := by
  cases h with
  | hlt => exact .inr (.inl ⟨rfl, rfl⟩)
  | loadVEndOfInput _ hin => exact .inr (.inr (.inl ⟨rfl, hin, _, rfl⟩))
  | badRegister | loadVBadAddress | loadRBadAddress | storeVBadAddress | storeRBadAddress | nextBadAddress
  | addMmrBadSource | addMmrBadDestination | modRrvByZero | number | string | buffer =>
    exact .inr (.inr (.inr ⟨_, rfl⟩))
  | _ => exact .inl rfl

/-- Settles O52: a fault at the fetch or at decode is no normal end, each normal end of an instruction has its one cause,
and the record is the one that instruction encodes to. -/
theorem normalEndsHaveOneCauseEach : Obligations.NormalEndsHaveOneCauseEach := by
  unfold Obligations.NormalEndsHaveOneCauseEach
  intro s t h
  obtain ⟨hrunning, ⟨-, rfl⟩ | ⟨-, -, -, -, rfl⟩ | ⟨r, i, hr, hd, hexec⟩⟩ := step_cases h
  · exact ⟨nofun, nofun⟩
  · exact ⟨nofun, nofun⟩
  have record : encode r.index i = r := encodeOfDecodeIsTheRecord r i hd
  rcases (exec_iff_effect.mp hexec).status_cases with hsame | ⟨hhalt, rfl⟩ | ⟨hinput, hin, rd, rfl⟩ | ⟨reason, hfault⟩
  · rw [hsame, hrunning]
    exact ⟨nofun, nofun⟩
  · rw [hhalt]
    exact ⟨fun _ => ⟨r, hr, by rw [← record]; exact ⟨rfl, rfl⟩⟩, nofun⟩
  · rw [hinput]
    exact ⟨nofun, fun _ => ⟨hin, r, rd, hr, by rw [← record]; exact ⟨rfl, rfl⟩⟩⟩
  · rw [hfault]
    exact ⟨nofun, nofun⟩

/-! The step's own checks (30_encoding R85, 20_memory R60) -/

/-- The record at a `pc` in program memory is the one the step fetches. -/
theorem record?_of_inRange {s : State} {r : MachineCode} (hpc : InRange s.pc s.plen) (hr : s.pmem[s.pc.toNat]? = some r) :
    s.record? = some r :=
  (if_pos hpc).trans hr

/-- A `pc` outside program memory has no record, and the step raises `BadPC`. -/
theorem step_outside {s : State} (h : s.status = .running) (hpc : ¬ InRange s.pc s.plen) :
    step s = .next { s with status := .fault (.badPC s.pc) } :=
  step_badPC h (if_neg hpc)

/-- Settles O6: the record at `pc` is the one fetched. -/
theorem stepRunsTheDecodedInstruction : Obligations.StepRunsTheDecodedInstruction := by
  unfold Obligations.StepRunsTheDecodedInstruction
  exact fun s r i hs hpc hr hd => step_exec hs (record?_of_inRange hpc hr) hd

/-- Settles O8: there is no record outside program memory. -/
theorem fetchOutsideProgramMemoryRaisesBadPC : Obligations.FetchOutsideProgramMemoryRaisesBadPC := by
  unfold Obligations.FetchOutsideProgramMemoryRaisesBadPC
  exact fun s hs hpc => step_outside hs hpc

/-- The first bad field is found behind fields that are in range (30_encoding R78). -/
theorem badField?_append {n : Nat} {pre : List Int} (post : List Int) {v : Int} (hpre : ∀ w ∈ pre, InRange w n)
    (hv : ¬ InRange v n) : badField? n (pre ++ v :: post) = some v := by
  have rest : badField? n (v :: post) = some v := List.find?_cons_of_pos (by rw [decide_eq_false hv]; rfl)
  unfold badField? at rest ⊢
  rw [List.find?_append, show pre.find? _ = none from badField?_none hpre, Option.none_or, rest]

/-- Settles O10: the field of the statement is the first bad one. -/
theorem badRegisterFieldStopsEveryInstruction : Obligations.BadRegisterFieldStopsEveryInstruction := by
  unfold Obligations.BadRegisterFieldStopsEveryInstruction
  intro i s pre post v hfields hpre hv
  exact exec_badField (hfields ▸ badField?_append post hpre hv)

/-- A data tag or a code without a tag raises `InvalidOpcode`, whether `exec` or the decoder finds it (log 9). -/
theorem step_invalidOpcode {s : State} {r : MachineCode} (hs : s.status = .running) (hr : s.record? = some r)
    (hi : r.opcode.isInstr = false) : step s = .next { s with status := .fault (.invalidOpcode r.opcode) } := by
  obtain ⟨k, op, args⟩ := r
  cases op with
  | NUMBER => exact step_exec (i := .number args) hs hr rfl
  | STRING => exact step_exec (i := .string args) hs hr rfl
  | BUFFER => exact step_exec (i := .buffer args) hs hr rfl
  | untagged => exact step_rejected hs hr rfl
  | _ => cases hi

/-- Settles O9: the opcode check, the decoder's arity check and the register check of `exec`. -/
theorem decodeFaultsInTheirOrder : Obligations.DecodeFaultsInTheirOrder := by
  unfold Obligations.DecodeFaultsInTheirOrder
  intro s r hs hr
  refine ⟨step_invalidOpcode hs hr, fun hi ha => step_rejected hs hr (decode_malformed hi ha), fun i v _ hd hv => ?_⟩
  exact (step_exec hs hr hd).trans (exec_badField hv)

end Sys2Proof.Machine

/-! PROOFS. The instructions one by one (41_control_flow, 42_data_movement, 43_arithmetic). -/

namespace Sys2Proof.Machine

/-! Control flow -/

/-- A step at a target outside program memory. -/
theorem step_at_bad_target {u : State} {t : Int} (hs : u.status = .running) (hu : u.pc = t) (ht : ¬ InRange t u.plen) :
    step u = .next { u with status := .fault (.badPC t) } := by
  subst hu
  exact step_outside hs ht

/-- Settles O12: `JMP` writes `pc` and one tick, and the next fetch is outside program memory. -/
theorem jmpSetsThePc : Obligations.JmpSetsThePc := by
  unfold Obligations.JmpSetsThePc
  exact fun s t => ⟨encoded_of_decode rfl fun _ => rfl, Effect.jmp.exec_eq, fun hs ht => step_outside hs ht⟩

/-- Settles O13: a branch on the flag before it, which it does not write. -/
theorem jzBranchesOnTheFlag : Obligations.JzBranchesOnTheFlag := by
  unfold Obligations.JzBranchesOnTheFlag
  exact fun s t => ⟨encoded_of_decode rfl fun _ => rfl, Effect.jz.exec_eq, fun hs _ ht => step_outside hs ht⟩

/-- A bad first register field. -/
theorem badField?_first {n : Nat} {v : Int} (post : List Int) (hv : ¬ InRange v n) : badField? n (v :: post) = some v :=
  badField?_append (pre := []) post nofun hv

/-- Settles O14: the compare writes the flag the branch then reads. -/
theorem jzRComparesAndBranches : Obligations.JzRComparesAndBranches := by
  unfold Obligations.JzRComparesAndBranches
  intro s t r
  refine ⟨encoded_of_decode rfl fun _ => rfl, fun hr => (Effect.jzR hr).exec_eq,
    fun hr => exec_badField (badField?_first [] hr), fun hs hr hzero ht => ?_⟩
  exact ⟨_, (Effect.jzR hr).exec_eq, step_at_bad_target hs (if_pos hzero) ht⟩

/-! Data movement -/

/-- Settles O15: `MOV` is one latch and the final advance. -/
theorem movStoresTheLiteral : Obligations.MovStoresTheLiteral := by
  unfold Obligations.MovStoresTheLiteral
  exact fun s rd imm => ⟨encoded_of_decode rfl fun _ => rfl,
    fun hrd => ⟨_, (Effect.mov hrd).exec_eq, wroteReg_of_set hrd rfl, rfl⟩,
    fun hrd => exec_badField (badField?_first [] hrd)⟩

/-- Settles O18: the form of `LOAD_V` that reads a cell. -/
theorem loadVFromACell : Obligations.LoadVFromACell := by
  unfold Obligations.LoadVFromACell
  exact fun s rd a v => ⟨encoded_of_decode rfl fun _ => rfl,
    fun hrd ha hv => ⟨_, (Effect.loadVCell hrd ha hv).exec_eq, wroteReg_of_set hrd rfl, rfl⟩⟩

/-- Settles O19: the address is latched before the register is written, so `rd = rp` is no special case. -/
theorem loadRFromThePointedCell : Obligations.LoadRFromThePointedCell := by
  unfold Obligations.LoadRFromThePointedCell
  exact fun s rd rp v => ⟨encoded_of_decode rfl fun _ => rfl,
    fun hrd hrp hv => ⟨_, (Effect.loadR hrd hrp hv).exec_eq, wroteReg_of_set hrd rfl, rfl⟩⟩

/-- Settles O21: the form of `STORE_V` that writes a cell. -/
theorem storeVToACell : Obligations.StoreVToACell := by
  unfold Obligations.StoreVToACell
  exact fun s a rs => ⟨encoded_of_decode rfl fun _ => rfl,
    fun hrs ha hok => ⟨_, (Effect.storeVCell hrs ha hok).exec_eq, wroteCell_of_write hok rfl, rfl⟩⟩

/-- Settles O22: the address is the number the pointer register holds. -/
theorem storeRToThePointedCell : Obligations.StoreRToThePointedCell := by
  unfold Obligations.StoreRToThePointedCell
  exact fun s rp rs => ⟨encoded_of_decode rfl fun _ => rfl,
    fun hrp hrs hok => ⟨_, (Effect.storeR hrp hrs hok).exec_eq, wroteCell_of_write hok rfl, rfl⟩⟩

/-- Settles O23: two register writes, the destination's after the pointer's. -/
theorem nextIncrementsThenLoads : Obligations.NextIncrementsThenLoads := by
  unfold Obligations.NextIncrementsThenLoads
  intro s rd rp v
  refine ⟨encoded_of_decode rfl fun _ => rfl, fun hrd hrp hv => ?_⟩
  have effect := Effect.next hrd hrp hv
  have pointer : s.wroteReg (s.latchRegister rp (s.reg rp + 1)) rp (s.reg rp + 1) := wroteReg_of_set hrp rfl
  obtain ⟨size, incremented, -⟩ := pointer
  have hrd' : InRange rd (s.latchRegister rp (s.reg rp + 1)).nreg := size ▸ hrd
  have hrp' : InRange rp (s.latchRegister rp (s.reg rp + 1)).nreg := size ▸ hrp
  refine ⟨_, effect.exec_eq, reg_latchRegister_same _ v hrd', fun hne => ?_, fun q hq hqrd hqrp => ?_,
    effect.nreg_eq, rfl⟩
  · exact (reg_latchRegister_other _ v hrd' hrp' hne.symm).trans incremented
  · exact effect.reg_eq hq (by simp [Instr.destinations, hqrd, hqrp])

/-- Settles O24: the four forms with a bad address. -/
theorem badDataAddressOfLoadsAndStores : Obligations.BadDataAddressOfLoadsAndStores := by
  unfold Obligations.BadDataAddressOfLoadsAndStores
  exact fun s q r a hq hr => ⟨fun hbad ha => (Effect.loadVBadAddress hq ha hbad).exec_eq,
    fun hbad ha => (Effect.storeVBadAddress hq ha hbad).exec_eq,
    fun hbad => (Effect.loadRBadAddress hq hr hbad).exec_eq,
    fun hbad => (Effect.storeRBadAddress hr hq hbad).exec_eq⟩

/-- Settles O25: the increment is latched before the access raises. -/
theorem badDataAddressOfNext : Obligations.BadDataAddressOfNext := by
  unfold Obligations.BadDataAddressOfNext
  exact fun s rd rp hrd hrp hbad => ⟨_, (Effect.nextBadAddress hrd hrp hbad).exec_eq, wroteReg_of_set hrp rfl, rfl⟩

/-! Arithmetic and compare -/

/-- Settles O26: the compare's result is kept by the flag alone. -/
theorem cmpSetsTheFlagToEquality : Obligations.CmpSetsTheFlagToEquality := by
  unfold Obligations.CmpSetsTheFlagToEquality
  exact fun s ra rb => ⟨encoded_of_decode rfl fun _ => rfl, fun hra hrb => (Effect.cmp hra hrb).exec_eq⟩

/-- Settles O27: the sum goes to the register and, by the 0/1 rule, to the flag. -/
theorem incAddsOne : Obligations.IncAddsOne := by
  unfold Obligations.IncAddsOne
  exact fun s rd => ⟨encoded_of_decode rfl fun _ => rfl,
    fun hrd => ⟨_, (Effect.inc hrd).exec_eq, wroteReg_of_set hrd rfl, rfl⟩⟩

/-- Settles O28: the form of `ADD_MMR` whose cells are both there. -/
theorem addMmrAddsAcrossMemory : Obligations.AddMmrAddsAcrossMemory := by
  unfold Obligations.AddMmrAddsAcrossMemory
  exact fun s md ms rs m => ⟨encoded_of_decode rfl fun _ => rfl,
    fun hrs hm hok => ⟨_, (Effect.addMmr hrs hm hok).exec_eq, wroteCell_of_write hok rfl, rfl⟩⟩

/-- Settles O29: the two forms of `ADD_MMR` with a bad cell. -/
theorem badDataAddressOfAddMmr : Obligations.BadDataAddressOfAddMmr := by
  unfold Obligations.BadDataAddressOfAddMmr
  exact fun s md ms rs hrs => ⟨fun hbad => (Effect.addMmrBadSource hrs hbad).exec_eq,
    fun m hm hbad => (Effect.addMmrBadDestination hrs hm hbad).exec_eq⟩

/-- The bounds of a floored remainder determine it (40_alu_datapath R103). -/
theorem fmod_eq_of_bounds {l r m q : Int} (h : l = r * q + m) (hm : 0 ≤ m ∧ m < r ∨ r < m ∧ m ≤ 0) : Int.fmod l r = m := by
  have division : m + r * q = l := by omega
  rcases hm with ⟨hlow, hhigh⟩ | ⟨hlow, hhigh⟩
  · exact ((Int.fdiv_fmod_unique (by omega)).mpr ⟨division, hlow, hhigh⟩).2
  · exact ((Int.fdiv_fmod_unique' (by omega)).mpr ⟨division, hlow, hhigh⟩).2

/-- A floored remainder lies between 0 and the divisor, on the divisor's side of 0 (40_alu_datapath R103). -/
theorem fmod_bounds (l : Int) {r : Int} (hr : r ≠ 0) :
    0 ≤ Int.fmod l r ∧ Int.fmod l r < r ∨ r < Int.fmod l r ∧ Int.fmod l r ≤ 0 := by
  rcases lt_or_gt_of_ne hr with hneg | hpos
  · exact .inr ((Int.fdiv_fmod_unique' hneg).mp ⟨rfl, rfl⟩).2
  · exact .inl ((Int.fdiv_fmod_unique hpos).mp ⟨rfl, rfl⟩).2

/-- Settles O30: the bounds leave one remainder, the floored one. -/
theorem modRrvLeavesTheFlooredRemainder : Obligations.ModRrvLeavesTheFlooredRemainder := by
  unfold Obligations.ModRrvLeavesTheFlooredRemainder
  intro s rd rs imm
  refine ⟨encoded_of_decode rfl fun _ => rfl, fun hrd hrs => ⟨fun m q hdiv hm => ?_, fun hne => ?_, ?_⟩⟩
  · have hne : imm ≠ 0 := by omega
    obtain rfl := fmod_eq_of_bounds hdiv hm
    exact ⟨_, (Effect.modRrv hrd hrs hne).exec_eq, wroteReg_of_set hrd rfl, rfl⟩
  · exact ⟨Int.fmod (s.reg rs) imm, Int.fdiv (s.reg rs) imm, (Int.mul_fdiv_add_fmod _ _).symm, fmod_bounds _ hne⟩
  · rintro rfl
    exact (Effect.modRrvByZero hrd hrs).exec_eq

/-- Settles O37: the ALU's remainder is the floored one. -/
theorem remainderTakesTheDivisorsSign : Obligations.RemainderTakesTheDivisorsSign := by
  unfold Obligations.RemainderTakesTheDivisorsSign
  intro l r s
  refine ⟨?_, fun hr => ⟨_, _, alu_mod s l hr, ⟨Int.fdiv l r, (Int.mul_fdiv_add_fmod _ _).symm⟩, ?_⟩⟩
  · rintro rfl
    exact alu_mod_zero s l
  · have := fmod_bounds l hr
    exact ⟨fun _ => by omega, fun _ => by omega⟩

/-- Settles O31: the index is read before the destination is written, so `rd = ri` is no special case. -/
theorem linearScalesTheIndex : Obligations.LinearScalesTheIndex := by
  unfold Obligations.LinearScalesTheIndex
  exact fun s rd ri imm => ⟨encoded_of_decode rfl fun _ => rfl,
    fun hrd hri => ⟨_, (Effect.linear hrd hri).exec_eq, wroteReg_of_set hrd rfl, rfl⟩⟩

/-- Settles O32: the flag rule of the product, then that of the sum. -/
theorem linearContAccumulatesTheIndex : Obligations.LinearContAccumulatesTheIndex := by
  unfold Obligations.LinearContAccumulatesTheIndex
  exact fun s rd ri imm => ⟨encoded_of_decode rfl fun _ => rfl,
    fun hrd hri => ⟨_, (Effect.linearCont hrd hri).exec_eq, wroteReg_of_set hrd rfl, rfl⟩⟩

/-- `STORE_R` reads the registers and the data memory alone: from states that agree in these, in the output and in the
status, it ends in states that agree in them, with a cell at the address and without one. -/
theorem storeR_agrees {s u : State} {rp rs : Int} (hrp : InRange rp s.nreg) (hrs : InRange rs s.nreg) (hx : u.x = s.x)
    (hdmem : u.dmem = s.dmem) (houtq : u.outq = s.outq) (hstatus : u.status = s.status) :
    ∃ t v, exec (.storeR rp rs) s = .next t ∧ exec (.storeR rp rs) u = .next v ∧
      t.dmem = v.dmem ∧ t.x = v.x ∧ t.outq = v.outq ∧ t.status = v.status := by
  have size : u.nreg = s.nreg := congrArg List.length hx
  have hrp' : InRange rp u.nreg := size ▸ hrp
  have hrs' : InRange rs u.nreg := size ▸ hrs
  have cells : u.dlen = s.dlen := congrArg List.length hdmem
  have pointer : u.reg rp = s.reg rp := reg_congr hx rp
  by_cases hok : InRange (s.reg rp) s.dlen
  · have hok' : InRange (u.reg rp) u.dlen := by rwa [pointer, cells]
    refine ⟨_, _, (Effect.storeR hrp hrs hok).exec_eq, (Effect.storeR hrp' hrs' hok').exec_eq, ?_, hx.symm, houtq.symm,
      hstatus.symm⟩
    simp [pointer, reg_congr hx rs, hdmem]
  · have hbad' : ¬ InRange (u.reg rp) u.dlen := by rwa [pointer, cells]
    refine ⟨_, _, (Effect.storeRBadAddress hrp hrs hok).exec_eq, (Effect.storeRBadAddress hrp' hrs' hbad').exec_eq,
      hdmem.symm, hx.symm, houtq.symm, ?_⟩
    simp [pointer]

/-- Settles O33: the computed address and the literal leave the same registers, memory, output and status, and `STORE_R`
keeps that. -/
theorem computedAddressStoresLikeADirectOne : Obligations.ComputedAddressStoresLikeADirectOne := by
  unfold Obligations.ComputedAddressStoresLikeADirectOne
  intro s rd ri rs imm hrd hri hrs
  have linear := Effect.linear (imm := imm) hrd hri
  have linearCont := Effect.linearCont (imm := imm) hrd hri
  have inRange {i : Instr} {t : State} {q : Int} (h : Effect i s t) (hq : InRange q s.nreg) : InRange q t.nreg :=
    h.nreg_eq.symm ▸ hq
  obtain ⟨c, c', hc, hc', agree⟩ := storeR_agrees (inRange linear hrd) (inRange linear hrs)
    (u := (s.latchRegister rd (imm * s.reg ri)).advance) rfl rfl rfl rfl
  obtain ⟨d, d', hd, hd', agreeCont⟩ := storeR_agrees (inRange linearCont hrd) (inRange linearCont hrs)
    (u := (s.latchRegister rd (s.reg rd + imm * s.reg ri)).advance) rfl rfl rfl rfl
  obtain ⟨hdmem, hx, houtq, hstatus⟩ := agree
  exact ⟨_, _, c, _, _, c', linear.exec_eq, linearCont.exec_eq, (Effect.mov hrd).exec_eq, (Effect.mov hrd).exec_eq, hc, hc',
    hdmem, hx, houtq, hstatus, d, d', hd, hd', agreeCont⟩

/-- Settles O34: each data tag is one `raise`. -/
theorem dataTagRaisesInvalidOpcode : Obligations.DataTagRaisesInvalidOpcode := by
  unfold Obligations.DataTagRaisesInvalidOpcode
  exact fun s args => ⟨exec_number s args, exec_string s args, exec_buffer s args⟩

end Sys2Proof.Machine

/-! PROOFS. The launch and the driving loop (70_reset_and_hazards, 60_exceptions section 6). -/

namespace Sys2Proof.Machine

/-- Settles O48: the fields of `State.reset` one by one. -/
theorem resetStateIsLegal : Obligations.ResetStateIsLegal := by
  unfold Obligations.ResetStateIsLegal
  exact ⟨rfl, Memory.wf_reset, rfl, rfl, rfl, rfl⟩

/-- The start state of a launch whose image loads to these memories (10_state R38). -/
def Launch.startState (l : Launch) (cells : Memory) (code : List MachineCode) : State where
  x      := (List.range l.nreg.toNat).map l.regInit
  pc     := 0
  tick   := 0
  z      := l.zInit
  da     := l.daInit
  br     := l.brInit
  dmem   := cells
  pmem   := code
  inq    := l.input
  outq   := []
  status := .running

/-- A launch that starts has a positive `NREG` and gives the start state of the memories its image loads to
(70_reset_and_hazards R243). -/
theorem Launch.start_eq_ok {l : Launch} {s : State} (h : l.start = .ok s) :
    0 < l.nreg ∧ s = l.startState s.dmem s.pmem := by
  unfold Launch.start at h
  split at h
  case isFalse => cases h
  case isTrue positive =>
    split at h
    next => cases h
    next => cases h; exact ⟨positive, rfl⟩

/-- Settles O56: the fields of `Launch.startState`, the register file read position by position. -/
theorem launchFixesTheRestOfTheState : Obligations.LaunchFixesTheRestOfTheState := by
  unfold Obligations.LaunchFixesTheRestOfTheState
  intro l s hstart
  obtain ⟨positive, hs⟩ := Launch.start_eq_ok hstart
  rw [hs]
  refine ⟨rfl, rfl, rfl, rfl, rfl, rfl, rfl, rfl, ?_, fun k hk => ?_⟩
  · simp only [State.nreg, Launch.startState, List.length_map, List.length_range]
    omega
  · have hlt : k < l.nreg.toNat := by omega
    simp [State.reg, Launch.startState, hlt]

/-- A list of entries loads exactly when each of them does. -/
theorem loadEntries_ok_iff {α : Type} {f : ImageEntry → Option α} {err : ImageEntry → LaunchError} {es : List ImageEntry} :
    (∃ as, loadEntries f err es = .ok as) ↔ ∀ e ∈ es, ∃ a, f e = some a := by
  constructor
  · rintro ⟨as, h⟩ e he
    have loaded : f e ∈ as.map some := loadEntries_ok h ▸ List.mem_map_of_mem he
    obtain ⟨a, -, ha⟩ := List.mem_map.mp loaded
    exact ⟨a, ha.symm⟩
  · intro h
    induction es with
    | nil => exact ⟨[], rfl⟩
    | cons e es ih =>
      obtain ⟨a, ha⟩ := h e List.mem_cons_self
      obtain ⟨as, has⟩ := ih fun e' he' => h e' (List.mem_cons_of_mem _ he')
      exact ⟨a :: as, by simp [loadEntries, ha, has]⟩

/-- A data entry loads exactly when its string names a data tag and it has one argument (30_encoding R75). -/
theorem ImageEntry.dataCell?_isSome_iff (e : ImageEntry) :
    (∃ c, e.dataCell? = some c) ↔ ∃ op v, Opcode.mnemonic op = some e.opcode ∧ op.dataTag ≠ none ∧ e.args = [v] := by
  constructor
  · rintro ⟨c, hc⟩
    obtain ⟨op, -, hname, htag, hargs⟩ := ImageEntry.dataCell?_some hc
    exact ⟨op, c.payload, hname, by simp [htag], hargs⟩
  · rintro ⟨op, v, hname, htag, hargs⟩
    obtain ⟨tag, htag⟩ := Option.ne_none_iff_exists'.mp htag
    exact ⟨⟨e.index, tag, v⟩, by simp [ImageEntry.dataCell?, ofMnemonic?_of_mnemonic hname, htag, hargs]⟩

/-- A code entry loads exactly when its string names a tag (30_encoding R75). -/
theorem ImageEntry.record?_isSome_iff (e : ImageEntry) :
    (∃ r, e.record? = some r) ↔ ∃ op, Opcode.mnemonic op = some e.opcode := by
  constructor
  · rintro ⟨r, hr⟩
    exact ⟨r.opcode, (ImageEntry.record?_some hr).2.1⟩
  · rintro ⟨op, hname⟩
    exact ⟨⟨e.index, op, e.args⟩, by simp [ImageEntry.record?, ofMnemonic?_of_mnemonic hname]⟩

/-- An image loads exactly when `data_length` fits and both its parts load (30_encoding R75). -/
theorem Image.load_ok_iff (image : Image) : (∃ m, image.load = .ok m) ↔
    (0 ≤ image.dataLength ∧ image.dataLength ≤ (image.entries.length : Int)) ∧
    (∃ cells, loadEntries ImageEntry.dataCell? .badDataEntry (image.entries.take image.dataLength.toNat) = .ok cells) ∧
    ∃ code, loadEntries ImageEntry.record? .badCodeEntry (image.entries.drop image.dataLength.toNat) = .ok code := by
  constructor
  · rintro ⟨m, h⟩
    unfold Image.load at h
    split at h
    case isFalse => cases h
    case isTrue fits =>
      split at h
      next => cases h
      next cells hcells =>
        split at h
        next => cases h
        next code hcode => exact ⟨fits, ⟨cells, hcells⟩, code, hcode⟩
  · rintro ⟨fits, ⟨cells, hcells⟩, code, hcode⟩
    exact ⟨(cells, code), by simp only [Image.load, if_pos fits, hcells, hcode]⟩

/-- A launch starts exactly on a positive `NREG` and an image that loads (70_reset_and_hazards R243). -/
theorem Launch.start_ok_iff (l : Launch) : (∃ s, l.start = .ok s) ↔ 0 < l.nreg ∧ ∃ m, l.image.load = .ok m := by
  constructor
  · rintro ⟨s, h⟩
    exact ⟨(Launch.start_eq_ok h).1, _, Launch.start_ok_load h⟩
  · rintro ⟨hpos, ⟨cells, code⟩, hload⟩
    exact ⟨l.startState cells code, by simp [Launch.start, Launch.startState, hpos, hload]⟩

/-- Settles O58: the register count, then the image, then its two parts entry by entry. -/
theorem launchStartsExactlyOnAWellFormedImage : Obligations.LaunchStartsExactlyOnAWellFormedImage := by
  unfold Obligations.LaunchStartsExactlyOnAWellFormedImage
  intro l
  simp only [Launch.start_ok_iff, Image.load_ok_iff, loadEntries_ok_iff, ImageEntry.dataCell?_isSome_iff,
    ImageEntry.record?_isSome_iff, and_assoc]

/-! The driving loop -/

/-- The loop's condition in terms of the status and the tick count (60_exceptions R225). -/
theorem drivable_iff {m : Nat} {s : State} : s.drivable m = true ↔ s.status = .running ∧ s.tick < m := by
  simp [State.drivable]

/-- The loop stops where its condition fails. -/
theorem driveLoop_stops {m : Nat} {r : DriveResult} (fuel : Nat) (h : ¬ r.state.drivable m = true) :
    driveLoop m fuel r = r := by
  cases fuel with
  | zero => rfl
  | succ fuel => exact if_neg h

/-- A turn of the loop is one step, where its condition holds. -/
theorem driveLoop_turn {m : Nat} {r : DriveResult} {t : State} (fuel : Nat) (h : r.state.drivable m = true)
    (ht : step r.state = .next t) : driveLoop m (fuel + 1) r = driveLoop m fuel ⟨t, r.instrCount + 1⟩ := by
  simp only [driveLoop, if_pos h, ht]

/-- A predicate of the state that each turn keeps holds when the loop stops. -/
theorem driveLoop_keeps {m : Nat} {P : State → Prop} (turn : ∀ s t, s.drivable m = true → step s = .next t → P s → P t)
    (fuel : Nat) (r : DriveResult) (h : P r.state) : P (driveLoop m fuel r).state := by
  induction fuel generalizing r with
  | zero => exact h
  | succ fuel ih =>
    by_cases hd : r.state.drivable m = true
    · obtain ⟨t, ht⟩ := step_answers_next (drivable_iff.mp hd).1
      rw [driveLoop_turn fuel hd ht]
      exact ih _ (turn _ _ hd ht h)
    · rwa [driveLoop_stops _ hd]

/-- Turns enough for the ticks left stop the loop by its own condition, since a turn that leaves the block running charges
a tick. -/
theorem driveLoop_stops_by_condition {m : Nat} (fuel : Nat) (r : DriveResult) (h : m < fuel + r.state.tick) :
    ¬ (driveLoop m fuel r).state.drivable m = true := by
  induction fuel generalizing r with
  | zero =>
    intro hd
    have := (drivable_iff.mp hd).2
    simp only [driveLoop] at this
    omega
  | succ fuel ih =>
    by_cases hd : r.state.drivable m = true
    · obtain ⟨t, ht⟩ := step_answers_next (drivable_iff.mp hd).1
      obtain ⟨-, -, rises⟩ := tickNeverDecreases r.state t ht
      rw [driveLoop_turn fuel hd ht]
      by_cases hrun : t.status = .running
      · have := rises hrun
        exact ih _ (show m < fuel + t.tick by omega)
      · have stopped : ¬ t.drivable m = true := fun hdt => hrun (drivable_iff.mp hdt).1
        rwa [driveLoop_stops fuel stopped]
    · rwa [driveLoop_stops _ hd]

/-- Settles O59: `maxTicks + 1` turns are enough from any tick count. -/
theorem driveStopsByItsOwnCondition : Obligations.DriveStopsByItsOwnCondition := by
  unfold Obligations.DriveStopsByItsOwnCondition
  intro m s
  have stopped : ¬ (drive m s).state.drivable m = true := driveLoop_stops_by_condition (m + 1) ⟨s, 0⟩ (by omega)
  by_cases hrun : (drive m s).state.status = .running
  · exact .inr (Nat.le_of_not_lt fun hlt => stopped (drivable_iff.mpr ⟨hrun, hlt⟩))
  · exact .inl hrun

/-- Settles O60: a turn starts below the limit and adds at most four ticks. -/
theorem driveOverrunsTheLimitByAtMostThree : Obligations.DriveOverrunsTheLimitByAtMostThree := by
  unfold Obligations.DriveOverrunsTheLimitByAtMostThree
  intro m s h
  refine driveLoop_keeps (P := fun u => u.tick ≤ m + 3) (fun u t hd ht _ => ?_) (m + 1) ⟨s, 0⟩ h
  have below := (drivable_iff.mp hd).2
  obtain ⟨-, bound, -⟩ := tickNeverDecreases u t ht
  omega

end Sys2Proof.Machine
